-- ==== Sys2Proof/Word.lean ====
section
/-! DEFINITION. The word types of the block (00_scope R10: every datum is unsigned). -/

namespace Sys2Proof

/-- An unsigned 8-bit value (R10). -/
abbrev Byte := BitVec 8

/-- An unsigned 4-bit value (R10). -/
abbrev Nibble := BitVec 4

/-- A 16-bit command word (30_encoding R45). -/
abbrev Word := BitVec 16

/-- The level of a pin or the value of a wire bit: `true` is 1 (high), `false` is 0 (low). -/
abbrev Level := Bool

end Sys2Proof
end

