-- ==== Sys2Proof/Syntax.lean ====
section
/-! DEFINITION. The commands of the block: one constructor per row of spec/opcode_table.json (30_encoding R47). -/

namespace Sys2Proof

/-- The seven commands with their operands as the assembler writes them (30_encoding R50). A column or a row is an index, so it
is a `Nat`, bounded by `Instr.wellFormed`; a byte operand is bits, sent as they are (R46(a)). -/
inductive Instr where
  /-- `SREAD`: read one SensorFrame (40_sensorlink R64). -/
  | sread
  /-- `DINIT`: display bring-up (41_displaylink R73). -/
  | dinit
  /-- `DCMD b`: write one command byte (R74). -/
  | dcmd (b : Byte)
  /-- `DDATA b`: write one character-data byte (R75). -/
  | ddata (b : Byte)
  /-- `DCLEAR`: clear the display (R76). -/
  | dclear
  /-- `DSETCUR col, row`: position the cursor (R77). -/
  | dsetcur (col row : Nat)
  /-- `DCLRROW row`: blank one row (R78). -/
  | dclrrow (row : Nat)
deriving DecidableEq, Repr

/-- The seven operations without their operands: the `op` of `SEQ = Running(op, k)` (10_state R28). -/
inductive Op where
  | sread | dinit | dcmd | ddata | dclear | dsetcur | dclrrow
deriving DecidableEq, Repr

/-- The operation a command selects. -/
def Instr.op : Instr → Op
  | .sread => .sread
  | .dinit => .dinit
  | .dcmd _ => .dcmd
  | .ddata _ => .ddata
  | .dclear => .dclear
  | .dsetcur _ _ => .dsetcur
  | .dclrrow _ => .dclrrow

/-- DisplayLink's operations (41_displaylink section 2): all but `SREAD`. -/
def Op.isDisplay : Op → Bool
  | .sread => false
  | .dinit | .dcmd | .ddata | .dclear | .dsetcur | .dclrrow => true

end Sys2Proof
end

