-- ==== Sys2Proof/WellFormed.lean ====
section
/-! DEFINITION. Which commands have operands in their ranges (30_encoding R46, R50). -/

namespace Sys2Proof

/-- `col` in [0, 15] and `row` in [0, 15]; a byte operand is a byte by its type (R50). An operand out of its range is an
assembly error: no word stands for it. -/
def Instr.wellFormed : Instr → Bool
  | .sread => true
  | .dinit => true
  | .dcmd _ => true
  | .ddata _ => true
  | .dclear => true
  | .dsetcur col row => decide (col < 16) && decide (row < 16)
  | .dclrrow row => decide (row < 16)

end Sys2Proof
end

