-- ==== Sys2Proof/Decode.lean ====
section
/-! DEFINITION. The command decoder and encoder (30_encoding R45 to R50), and the match/mask table of R47. -/

namespace Sys2Proof

/-- Bits [7:0] of a command word, the byte at offset 0x0 (20_memory R38(a)). -/
def lowByte (w : Word) : Byte := w.extractLsb' 0 8

/-- Bits [15:8] of a command word, the byte at offset 0x1 (20_memory R38(a)). -/
def highByte (w : Word) : Byte := w.extractLsb' 8 8

/-- The word `{high, low}` (00_scope R10, 10_state R18). -/
def wordOf (high low : Byte) : Word := high ++ low

/-- The field `OP = w[15:12]` (R45). -/
def opField (w : Word) : Nibble := w.extractLsb' 12 4

/-- The field `A = w[11:8]` (R45). -/
def aField (w : Word) : Nibble := w.extractLsb' 8 4

/-- The field `IMM = w[7:0]` (R45). -/
def immField (w : Word) : Byte := w.extractLsb' 0 8

/-- The column field `IMM[3:0]` (R45). -/
def colField (w : Word) : Nibble := w.extractLsb' 0 4

/-- The field `IMM[7:4]`, reserved for `DSETCUR` (R45). -/
def immHighField (w : Word) : Nibble := w.extractLsb' 4 4

/-- Why a word is illegal (R48): one name per clause. -/
inductive Illegal where
  /-- R48(a): `OP = 0x0`. -/
  | opZero
  /-- R48(b): `OP` in 0x8 to 0xF. -/
  | opReserved
  /-- R48(c): `A != 0` where the row fixes it to 0. -/
  | aNotZero
  /-- R48(c): `IMM != 0` where the row fixes it to 0. -/
  | immNotZero
  /-- R48(c): `IMM[7:4] != 0` for `DSETCUR`. -/
  | immHighNotZero
deriving DecidableEq, Repr

/-- What the decoder says of a word: the command it selects, or the clause of R48 that makes it illegal. -/
inductive Decoded where
  | instr (i : Instr)
  | illegal (why : Illegal)
deriving DecidableEq, Repr

/-- A row that fixes `A` and `IMM` to 0. -/
def decodeBare (i : Instr) (w : Word) : Decoded :=
  if aField w ≠ 0 then .illegal .aNotZero
  else if immField w ≠ 0 then .illegal .immNotZero
  else .instr i

/-- A row that fixes `A` to 0 and takes `IMM` as its byte (R46(a)). -/
def decodeByteOperand (f : Byte → Instr) (w : Word) : Decoded :=
  if aField w ≠ 0 then .illegal .aNotZero else .instr (f (immField w))

/-- The decoder of R47 and R48, total on every word. -/
def decode (w : Word) : Decoded :=
  match (opField w).toNat with
  | 0 => .illegal .opZero
  | 1 => decodeBare .sread w
  | 2 => decodeBare .dinit w
  | 3 => decodeByteOperand .dcmd w
  | 4 => decodeByteOperand .ddata w
  | 5 => decodeBare .dclear w
  | 6 => if immHighField w ≠ 0 then .illegal .immHighNotZero
         else .instr (.dsetcur (colField w).toNat (aField w).toNat)
  | 7 => if immField w ≠ 0 then .illegal .immNotZero
         else .instr (.dclrrow (aField w).toNat)
  | _ => .illegal .opReserved

/-- The decoder on the two bytes as they stand in `CMDL` and `CMDH` (R45: the word is `{CMDH, CMDL}`). -/
def decodeBytes (cmdl cmdh : Byte) : Decoded := decode (wordOf cmdh cmdl)

/-- One row of the opcode map of R47: a word selects the row iff its bits under the mask are the match. -/
structure OpcodeRow where
  op      : Op
  pattern : Word
  mask    : Word
deriving DecidableEq, Repr

/-- The opcode map of R47, as `spec/opcode_table.json` has it. -/
def opcodeTable : List OpcodeRow :=
  [ ⟨.sread,   0x1000, 0xFFFF⟩,
    ⟨.dinit,   0x2000, 0xFFFF⟩,
    ⟨.dcmd,    0x3000, 0xFF00⟩,
    ⟨.ddata,   0x4000, 0xFF00⟩,
    ⟨.dclear,  0x5000, 0xFFFF⟩,
    ⟨.dsetcur, 0x6000, 0xF0F0⟩,
    ⟨.dclrrow, 0x7000, 0xF0FF⟩ ]

/-- `(w & mask) = match` (R47). -/
def OpcodeRow.selects (r : OpcodeRow) (w : Word) : Bool := w &&& r.mask == r.pattern

/-- The encoder: the word of a well-formed command (R47, R50; the table's `encoding` column, field by field). -/
def encode : Instr → Word
  | .sread => 0x1000
  | .dinit => 0x2000
  | .dcmd b => 0x30#8 ++ b
  | .ddata b => 0x40#8 ++ b
  | .dclear => 0x5000
  | .dsetcur col row => 0x6#4 ++ (BitVec.ofNat 4 row ++ (0x0#4 ++ BitVec.ofNat 4 col))
  | .dclrrow row => 0x7#4 ++ (BitVec.ofNat 4 row ++ 0x00#8)

/-- The host's reading of the decoder: `w` holds the command's `nbits` bits, bit 0 the least significant of the first word.
The block stores a word as the bytes `CMDL` (offset 0x0) and `CMDH` (offset 0x1); no command is longer than 16 bits (R45). -/
def decodeTableWord (nbits w : Nat) : Option Instr :=
  if nbits ≤ 16 then
    let cw : Word := BitVec.ofNat 16 (w % 2 ^ nbits)
    match decodeBytes (lowByte cw) (highByte cw) with
    | .instr i => some i
    | .illegal _ => none
  else none

end Sys2Proof
end

