-- ==== Sys2Proof/Config.lean ====
section
/-! DEFINITION. The implementation parameters (00_scope R8), their constraints (R9), the reference record, and the free values
the spec leaves unspecified. -/

namespace Sys2Proof

/-- A microcontroller port bit, for `PINMAP` (R8, decision D45). -/
structure PortPin where
  port : Nat
  bit  : Nat
deriving DecidableEq, Repr

/-- `PINMAP` (R8): where each of the block's seven pins goes. No rule depends on it. -/
structure PinMap where
  sLine : PortPin
  db0   : PortPin
  db1   : PortPin
  db2   : PortPin
  db3   : PortPin
  en    : PortPin
  rs    : PortPin
deriving DecidableEq, Repr

/-- The configuration record of R8. Durations are in ticks (R6). -/
structure Config where
  startTicks    : Nat        -- START_TICKS
  waitCeil      : Nat        -- WAIT_CEIL
  bitThreshold  : Nat        -- BIT_THRESHOLD, OPEN
  enSetupTicks  : Nat        -- EN_SETUP_TICKS
  enHighTicks   : Nat        -- EN_HIGH_TICKS
  enSettleTicks : Nat        -- EN_SETTLE_TICKS
  clearWaitTicks : Nat       -- CLEAR_WAIT_TICKS
  initWait0Ticks : Nat       -- INIT_WAIT0_TICKS
  initWait1Ticks : Nat       -- INIT_WAIT1_TICKS, OPEN
  initWait2Ticks : Nat       -- INIT_WAIT2_TICKS, OPEN
  initWait3Ticks : Nat       -- INIT_WAIT3_TICKS, OPEN
  initWait4Ticks : Nat       -- INIT_WAIT4_TICKS
  initTail      : List Byte  -- INIT_TAIL, OPEN
  funcsetNibble : Nibble     -- FUNCSET_NIBBLE
  mode4Nibble   : Nibble     -- MODE4_NIBBLE
  clearOpcode   : Byte       -- CLEAR_OPCODE
  ddramSet      : Byte       -- DDRAM_SET
  row1Offset    : Nat        -- ROW1_OFFSET
  cols          : Nat        -- COLS
  rows          : Nat        -- ROWS
  spaceChar     : Byte       -- SPACE_CHAR
  frameBytes    : Nat        -- FRAME_BYTES
  frameBits     : Nat        -- FRAME_BITS
  readSpacingTicks : Nat     -- READ_SPACING_TICKS, a host obligation only (R100)
  baseAddr      : Nat        -- BASE_ADDR, OPEN
  pinMap        : PinMap     -- PINMAP, OPEN
deriving DecidableEq, Repr

/-- The constraints of R9; a model refuses a configuration that breaks one. That `INIT_TAIL` holds bytes and that the two
nibbles are below 16 is in the types. The last line is the model's choice (DESIGN CHOICE, log 24): R9 does not constrain the
frame size, but the rules that use it write 5 bytes and 40 bits. -/
abbrev Config.Valid (c : Config) : Prop :=
  18000 ≤ c.startTicks ∧
  1 ≤ c.waitCeil ∧
  (1 ≤ c.bitThreshold ∧ c.bitThreshold < c.waitCeil) ∧
  1 ≤ c.enSetupTicks ∧
  1 ≤ c.enHighTicks ∧
  100 ≤ c.enSettleTicks ∧
  0 ≤ c.clearWaitTicks ∧
  (c.initWait2Ticks < c.initWait1Ticks ∧ c.initWait3Ticks < c.initWait2Ticks) ∧
  (c.cols = 16 ∧ c.rows = 2) ∧
  (c.frameBytes = 5 ∧ c.frameBits = 40)

/-- The reference values of R8, which `95_test_vectors.md` uses. `BASE_ADDR` and `PINMAP` have no reference value in the spec:
0 and port bits 0 are a DESIGN CHOICE (log 2); no rule depends on either. -/
def Config.reference : Config where
  startTicks := 18000
  waitCeil := 200
  bitThreshold := 40
  enSetupTicks := 1
  enHighTicks := 1
  enSettleTicks := 100
  clearWaitTicks := 2000
  initWait0Ticks := 0
  initWait1Ticks := 4100
  initWait2Ticks := 100
  initWait3Ticks := 40
  initWait4Ticks := 0
  initTail := []
  funcsetNibble := 0x3
  mode4Nibble := 0x2
  clearOpcode := 0x01
  ddramSet := 0x80
  row1Offset := 0x40
  cols := 16
  rows := 2
  spaceChar := 0x20
  frameBytes := 5
  frameBits := 40
  readSpacingTicks := 1000000
  baseAddr := 0
  pinMap := ⟨⟨0, 0⟩, ⟨0, 0⟩, ⟨0, 0⟩, ⟨0, 0⟩, ⟨0, 0⟩, ⟨0, 0⟩, ⟨0, 0⟩⟩

/-- Ticks of one `writeNibble` (41_displaylink R70): the `N` of R105. -/
def Config.nibbleTicks (c : Config) : Nat :=
  c.enSetupTicks + c.enHighTicks + c.enSettleTicks

/-- Ticks of one `writeByte` (41_displaylink R71): the `B` of R105. -/
def Config.byteTicks (c : Config) : Nat :=
  2 * c.nibbleTicks

/-- The byte a host reads from a FRAME register while `OK = 0` (10_state R25: unspecified, "drawn freely and independently on
each read"): a free value, applied to the state's draw counter (log 5). -/
opaque Config.freeByte : Nat → Byte

/-- The level the sensor puts on the released line in a tick that `State.sensor` does not list (40_sensorlink R54, R55: a free
draw per tick): a free value, applied to the state's draw counter (log 4). -/
opaque Config.freeLevel : Nat → Level

end Sys2Proof
end

