-- ==== Sys2Proof/Machine/State.lean ====
section
/-! DEFINITION. The state of the block (10_state R15), its inputs and its observation (00_scope R5, R7), and reset (R32). -/

namespace Sys2Proof.Machine

/-- The stage names of the waits of one SREAD (40_sensorlink R57). -/
inductive Stage where
  | ackLow | ackHigh | ackEnd | bitLow | bitHigh
deriving DecidableEq, Repr

/-- `LAST_RESULT` (10_state R30). -/
inductive LastResult where
  | none
  | okFrame
  | timeout (stage : Stage) (i : Nat)
  | checksumFail
deriving DecidableEq, Repr

/-- The statements of the procedures of 40_sensorlink and 41_displaylink. All but `repeatTick n` with `n > 0` and `sample`
take no tick. -/
inductive Stmt where
  /-- `OK <- 0` (R64). -/
  | clearOk
  /-- `LAST_RESULT <- NONE` (R64). -/
  | clearResult
  /-- `ACC[0..4] <- 0; BIT_I <- 0` (R61, R64). -/
  | clearAcc
  /-- `S_DIR <- d` (R64). -/
  | setSDir (d : Bool)
  /-- `WCNT <- 0`, the first statement of `waitLevel` (R56). -/
  | clearWcnt
  /-- The loop of `waitLevel(level, stage, i)` (R56). -/
  | sample (level : Level) (stage : Stage) (i : Nat)
  /-- The bit decision on the count the BIT_HIGH wait returned, and the shift into ACC (R60, R61). -/
  | shiftBit (i : Nat)
  /-- Checksum validation and its writes (R63, R64). -/
  | validate
  /-- `INITD <- v` (R73). -/
  | setInitd (v : Bool)
  /-- `D_OE <- v` (R73). -/
  | setDOe (v : Bool)
  /-- `D_RS <- v` (R71, R73). -/
  | setRs (v : Level)
  /-- `D_DB <- n` (R70). -/
  | setDb (n : Nibble)
  /-- `D_EN <- v` (R70). -/
  | setEn (v : Level)
  /-- `if D_OE = 1: emit Latch(D_RS, n)` (R70). -/
  | emitLatch (n : Nibble)
  /-- `repeat n: tick()` (00_scope R11). -/
  | repeatTick (n : Nat)
deriving DecidableEq, Repr

/-- `SEQ` (10_state R28): idle, or the running operation and the point reached in its procedure. The point is held as the list
of statements still to run (log 8). -/
inductive Seq where
  | idle
  | running (op : Op) (rest : List Stmt)
deriving DecidableEq, Repr

/-- What can happen next at the block's boundary (00_scope R5). A schedule is any list of them: every interleaving of host
accesses, ticks and resets is one. -/
inductive Event where
  /-- One tick passes (R6). -/
  | tick
  /-- The host's `MemRead` of `n` bytes at a host address (20_memory R35, R37). -/
  | read (addr n : Nat)
  /-- The host's `MemWrite` of `n` bytes at a host address; `v` is the byte when `n = 1` (20_memory R36, R37). -/
  | write (addr n : Nat) (v : Byte)
  /-- `WAITIDLE`: read STATUS until BUSY is 0 (30_encoding R51, R52(b)). -/
  | waitIdle
  /-- The reset input is asserted, or the block is powered on (70_reset R95, 60_exceptions R94). It is one instant and is not
  held: how long the input stays asserted, the spec does not say (DESIGN CHOICE, log 12). -/
  | reset
deriving DecidableEq, Repr

/-- A host access as the observation records it (00_scope R7(a)). -/
inductive Access where
  | read (addr : Nat) (value : Byte)
  | write (addr : Nat) (value : Byte)
deriving DecidableEq, Repr

/-- The six display pins while the bus is driven (10_state R27). -/
structure BusLevels where
  db : Nibble
  en : Level
  rs : Level
deriving DecidableEq, Repr

/-- The pins in one tick (00_scope R7(b)): the sensor line's direction and level, and the display bus, `none` while all six of
its pins are high-impedance (10_state R27). -/
structure PinSample where
  t     : Nat
  sDir  : Bool
  sLine : Level
  bus   : Option BusLevels
deriving DecidableEq, Repr

/-- An entry of the latch log (00_scope R7(c)): a latch event (41_displaylink R68), or the marker of a reset that interrupted a
display operation (70_reset R96). -/
inductive LogEntry where
  | latch (t : Nat) (rs : Level) (n : Nibble)
  | abort (t : Nat)
deriving DecidableEq, Repr

/-- The block. The fields from `cmdl` to `t` are the elements of 10_state R15; `cfg` is the parameter record of 00_scope R8;
`schedule`, `sensor` and `draws` are the inputs and the index of the next free value; the last three are the observation of
00_scope R7. -/
structure State where
  cfg        : Config
  cmdl       : Byte
  cmdh       : Byte
  ok         : Bool
  initd      : Bool
  ill        : Bool
  ovr        : Bool
  frame      : Vector Byte 5
  sDir       : Bool
  sOut       : Level
  dOe        : Bool
  dDb        : Nibble
  dEn        : Level
  dRs        : Level
  seq        : Seq
  ir         : Word
  acc        : Vector Byte 5
  bitI       : Nat
  wcnt       : Nat
  lastResult : LastResult
  t          : Nat
  schedule   : List Event
  sensor     : List Level
  draws      : Nat
  accesses   : List Access
  pinTrace   : List PinSample
  latchLog   : List LogEntry
deriving DecidableEq, Repr

/-- Why the model stops. -/
inductive Fault where
  /-- A host access at an address outside the block's 16-byte window (20_memory R33: "exactly one address space: a 16-byte
  register window"). Raised by the host port (`hostRead`, `hostWrite`). Safe: the block has no such address (log 10). -/
  | outsideWindow (addr : Nat)
deriving DecidableEq, Repr

/-- What the model gives no meaning. -/
inductive Refusal where
  /-- An instruction that has no meaning yet; raised by `exec`'s arms only. Safe. No arm raises it. -/
  | notModelled (mnemonic : String)
  /-- A host access of a width other than one byte (20_memory R37: "The model refuses it and gives it no meaning"). Raised by
  the host port. Safe. -/
  | accessWidth (n : Nat)
  /-- A configuration that breaks a constraint of 00_scope R9 ("a model refuses a configuration that breaks one"). Raised by
  `step`. Safe. -/
  | badConfig
deriving DecidableEq, Repr

/-- The state after reset under a configuration (10_state R32), with no input listed and an empty observation. The bytes of
`frame` are a DESIGN CHOICE (log 5): R32 leaves them unspecified, and no host read returns them while `ok` is false. -/
def State.resetWith (c : Config) : State where
  cfg := c
  cmdl := 0x00
  cmdh := 0x00
  ok := false
  initd := false
  ill := false
  ovr := false
  frame := Vector.replicate 5 0x00
  sDir := false
  sOut := false
  dOe := false
  dDb := 0x0
  dEn := false
  dRs := false
  seq := .idle
  ir := 0x0000
  acc := Vector.replicate 5 0x00
  bitI := 0
  wcnt := 0
  lastResult := .none
  t := 0
  schedule := []
  sensor := []
  draws := 0
  accesses := []
  pinTrace := []
  latchLog := []

/-- The block right after reset, at the reference configuration (log 1). -/
def State.reset : State := State.resetWith Config.reference

end Sys2Proof.Machine
end

