-- ==== Sys2Proof/Machine/Flags.lean ====
section
/-! DEFINITION. STATUS and its computed bit BUSY (10_state R19, R20), the bit decision (40_sensorlink R60) and the checksum
(R63). -/

namespace Sys2Proof.Machine

/-- `BUSY = 1` exactly when `SEQ` is not `Idle` (10_state R20). -/
def State.busy (s : State) : Bool :=
  match s.seq with
  | .idle => false
  | .running _ _ => true

/-- `STATUS = {000, OVR, ILL, INITD, OK, BUSY}` (20_memory R34, 10_state R19). -/
def State.status (s : State) : Byte :=
  0#3 ++ (BitVec.ofBool s.ovr ++ (BitVec.ofBool s.ill ++ (BitVec.ofBool s.initd ++
    (BitVec.ofBool s.ok ++ BitVec.ofBool s.busy))))

/-- `b = 1 if h > BIT_THRESHOLD`, else 0 (40_sensorlink R60): the comparison is strict. -/
def bitDecision (c : Config) (h : Nat) : Level := decide (c.bitThreshold < h)

/-- A byte of a frame. -/
def frameByte (f : Vector Byte 5) (i : Nat) : Byte := f[i]?.getD 0

/-- `(ACC[i div 8] << 1) | b) mod 256` stored back (40_sensorlink R61). -/
def shiftInto (f : Vector Byte 5) (i : Nat) (b : Level) : Vector Byte 5 :=
  f.setIfInBounds (i / 8) ((frameByte f (i / 8) <<< 1) ||| BitVec.setWidth 8 (BitVec.ofBool b))

/-- `(ACC[0] + ACC[1] + ACC[2] + ACC[3]) mod 256 = ACC[4]`, the sum in the integers (40_sensorlink R63). -/
def checksumValid (f : Vector Byte 5) : Bool :=
  ((frameByte f 0).toNat + (frameByte f 1).toNat + (frameByte f 2).toNat + (frameByte f 3).toNat) % 256
    == (frameByte f 4).toNat

end Sys2Proof.Machine
end

