-- ==== Sys2Proof/Machine/Operands.lean ====
section
/-! DEFINITION. Operand assembly (30_encoding R46), the nibbles of a byte and the DDRAM position byte (41_displaylink R71, R77),
and the register that a window offset names (20_memory R34). -/

namespace Sys2Proof.Machine

/-- `b[7:4]`, the nibble sent first (41_displaylink R71). -/
def highNibble (b : Byte) : Nibble := b.extractLsb' 4 4

/-- `b[3:0]`, the nibble sent second (41_displaylink R71). -/
def lowNibble (b : Byte) : Nibble := b.extractLsb' 0 4

/-- `rowsel = (A != 0) ? 1 : 0` (30_encoding R46(c)): any nonzero row is row 1. -/
def rowSelect (row : Nat) : Bool := row != 0

/-- `addr <- col + (rowsel = 1 ? ROW1_OFFSET : 0)` (41_displaylink R77), in the integers. -/
def ddramAddr (c : Config) (col row : Nat) : Nat :=
  col + (if rowSelect row then c.row1Offset else 0)

/-- `DDRAM_SET | addr`, the byte DSETCUR and DCLRROW send (41_displaylink R77, R78). An address beyond a byte, which only a record
with ROW1_OFFSET above 240 has, is taken mod 256 (00_scope R10; DEDUCED, log 21). -/
def positionByte (c : Config) (col row : Nat) : Byte :=
  c.ddramSet ||| BitVec.ofNat 8 (ddramAddr c col row)

/-- The registers of the window (20_memory R34). -/
inductive Reg where
  | cmdl
  | cmdh
  | status
  | frame (i : Fin 5)
  | reserved
deriving DecidableEq, Repr

/-- The register at a window offset (20_memory R34). -/
def regAt (off : Nat) : Reg :=
  match off with
  | 0 => .cmdl
  | 1 => .cmdh
  | 2 => .status
  | 4 => .frame 0
  | 5 => .frame 1
  | 6 => .frame 2
  | 7 => .frame 3
  | 8 => .frame 4
  | _ => .reserved

/-- The window offset of a host address, if it lies in `BASE_ADDR + [0x0, 0xF]` (20_memory R33). -/
def windowOffset (c : Config) (addr : Nat) : Option Nat :=
  if c.baseAddr ≤ addr ∧ addr < c.baseAddr + 16 then some (addr - c.baseAddr) else none

end Sys2Proof.Machine
end

