-- ==== Sys2Proof/Machine/Ops.lean ====
section
/-! DEFINITION. The shared operations: recording an error (60_exceptions R81, the block's counterpart of taking an exception;
no trap and no return from one exist, R84, R85), the pins and the sensor line, what each statement of a procedure does, and
accepting a command (30_encoding R49). -/

namespace Sys2Proof.Machine

/-! Recording an error: each is complete at its instant and the block goes on (60_exceptions R82, R84). -/

/-- `COMMAND_OVERRUN`: `OVR <- 1` and nothing else (10_state R24, 60_exceptions R81 code 4). -/
def State.overrun (s : State) : State := { s with ovr := true }

/-- `ILLEGAL_COMMAND`: `ILL <- 1` and nothing else (10_state R23, 60_exceptions R81 code 3). -/
def State.illegal (s : State) : State := { s with ill := true }

/-- `raise SensorTimeout(stage, i)` (40_sensorlink R58, 60_exceptions R81 code 1): the SREAD ends. -/
def State.sensorTimeout (stage : Stage) (i : Nat) (s : State) : State :=
  { s with lastResult := .timeout stage i, seq := .idle }

/-- Checksum validation and its writes (40_sensorlink R63, R64; 60_exceptions R81 code 2). -/
def State.validateFrame (s : State) : State :=
  if checksumValid s.acc then { s with frame := s.acc, ok := true, lastResult := .okFrame }
  else { s with lastResult := .checksumFail }

/-! Pins and the sensor line. -/

/-- `env(t)` for the coming tick (40_sensorlink R54): the next listed level, or a free value (log 4). -/
def State.sensorLevel (s : State) : Level :=
  match s.sensor with
  | b :: _ => b
  | [] => Config.freeLevel s.draws

/-- The level of `S_LINE` in the coming tick (40_sensorlink R54): the block's while it drives, else the sensor's. -/
def State.sLine (s : State) : Level := if s.sDir then s.sOut else s.sensorLevel

/-- The display bus's six pins (10_state R27): high-impedance while `D_OE = 0`. -/
def State.bus (s : State) : Option BusLevels :=
  if s.dOe then some ⟨s.dDb, s.dEn, s.dRs⟩ else none

/-- One tick passes over the pins: `T` advances (10_state R31), the environment gives its level of the tick and the pin trace
records the tick (00_scope R7(b)). -/
def State.passTick (s : State) : State :=
  { s with
    t := s.t + 1
    sensor := s.sensor.tail
    draws := s.draws + 1
    pinTrace := s.pinTrace ++ [⟨s.t + 1, s.sDir, s.sLine, s.bus⟩] }

/-- Latch events reach the display only while the bus is driven (41_displaylink R69). -/
def drivenOnly (dOe : Bool) (es : List LogEntry) : List LogEntry := if dOe then es else []

/-- `if D_OE = 1: emit Latch(D_RS, n)`, stamped with the number of the tick that follows (41_displaylink R70, 00_scope R11). -/
def State.emitLatch (n : Nibble) (s : State) : State :=
  { s with latchLog := s.latchLog ++ drivenOnly s.dOe [.latch (s.t + 1) s.dRs n] }

/-- `BIT_I` and `ACC` after the bit of index `i` is decided on the count `h` the BIT_HIGH wait returned, which is `WCNT`
(40_sensorlink R59, R60, R61). -/
def State.shiftBit (i : Nat) (s : State) : State :=
  { s with acc := shiftInto s.acc i (bitDecision s.cfg s.wcnt), bitI := i + 1 }

/-! Statements. -/

/-- Whether a statement takes a tick (00_scope R11: `repeat n: tick()` takes none when `n = 0`). -/
def Stmt.takesTick : Stmt → Bool
  | .repeatTick n => n != 0
  | .sample _ _ _ => true
  | .clearOk => false
  | .clearResult => false
  | .clearAcc => false
  | .setSDir _ => false
  | .clearWcnt => false
  | .shiftBit _ => false
  | .validate => false
  | .setInitd _ => false
  | .setDOe _ => false
  | .setRs _ => false
  | .setDb _ => false
  | .setEn _ => false
  | .emitLatch _ => false

/-- The effect of a statement that takes no tick. The two that take ticks are `tick`'s business and do nothing here. -/
def perform : Stmt → State → State
  | .clearOk, s => { s with ok := false }
  | .clearResult, s => { s with lastResult := .none }
  | .clearAcc, s => { s with acc := Vector.replicate 5 0x00, bitI := 0 }
  | .setSDir d, s => { s with sDir := d }
  | .clearWcnt, s => { s with wcnt := 0 }
  | .sample _ _ _, s => s
  | .shiftBit i, s => s.shiftBit i
  | .validate, s => s.validateFrame
  | .setInitd v, s => { s with initd := v }
  | .setDOe v, s => { s with dOe := v }
  | .setRs v, s => { s with dRs := v }
  | .setDb n, s => { s with dDb := n }
  | .setEn v, s => { s with dEn := v }
  | .emitLatch n, s => s.emitLatch n
  | .repeatTick _, s => s

/-- The state after the statements that stand before a procedure's next tick. -/
def runDue : List Stmt → State → State
  | [], s => s
  | st :: rest, s => if st.takesTick then s else runDue rest (perform st s)

/-- What is left of a procedure once the statements before its next tick have run: it begins with a statement that takes a
tick, or is empty. -/
def pending : List Stmt → List Stmt
  | [] => []
  | st :: rest => if st.takesTick then st :: rest else pending rest

/-! Accepting a command (30_encoding R49). -/

/-- The last branch of R49: `IR <- w; BUSY <- 1; SEQ <- Running(op, start)`, and the statements before the first `tick()`.
(A procedure that takes no tick would end at once; under a valid configuration none does, 10_state R20.) -/
def State.accept (op : Op) (w : Word) (proc : List Stmt) (s : State) : State :=
  { runDue proc { s with ir := w } with
    seq := if pending proc = [] then .idle else .running op (pending proc) }

/-- Presenting a legal command (30_encoding R49): refused with `OVR` while an operation runs, else accepted. -/
def issue (op : Op) (w : Word) (proc : List Stmt) (s : State) : Host.Outcome State Fault Refusal :=
  if s.busy then .next s.overrun else .next (s.accept op w proc)

end Sys2Proof.Machine
end

