-- ==== Sys2Proof/Machine/Sequencer.lean ====
section
/-! DEFINITION. One tick of the block (00_scope R6, R11; 10_state R17, R20, R28). -/

namespace Sys2Proof.Machine

/-- What follows a tick of the operation `op` when `rest` of its procedure is left. If no tick is left, the remaining
statements run at the end of this tick, together with BUSY falling (10_state R20, 00_scope R11); otherwise they wait for the
start of the next tick (log 7). -/
def settle (op : Op) (rest : List Stmt) (s : State) : State :=
  if pending rest = [] then { runDue rest s with seq := .idle }
  else { s with seq := .running op rest }

/-- One sample of `waitLevel(want, stage, i)` (40_sensorlink R56): count it, succeed on the level, time out on the ceiling. -/
def takeSample (op : Op) (want : Level) (stage : Stage) (i : Nat) (rest : List Stmt) (level : Level) (s : State) : State :=
  let s := { s with wcnt := s.wcnt + 1 }
  if level = want then settle op rest s
  else if s.wcnt = s.cfg.waitCeil then s.sensorTimeout stage i
  else { s with seq := .running op (.sample want stage i :: rest) }

/-- `repeat n: tick()` with one of its ticks taken, before `rest`. -/
def countDown (n : Nat) (rest : List Stmt) : List Stmt :=
  if n ≤ 1 then rest else .repeatTick (n - 1) :: rest

/-- The end of a tick whose line level was `level`, when the procedure stood at `k`: the statement at its head consumes the
tick. -/
def endTick (op : Op) (k : List Stmt) (level : Level) (s : State) : State :=
  match k with
  | .repeatTick n :: rest => settle op (countDown n rest) s
  | .sample want stage i :: rest => takeSample op want stage i rest level s
  | _ => settle op k s

/-- One tick: the statements before it set the pins, the tick passes, and its sample is processed at its end (00_scope R11). An
idle block only lets time pass. -/
def tick (s : State) : State :=
  match s.seq with
  | .idle => s.passTick
  | .running op rest => endTick op (pending rest) (runDue rest s).sLine (runDue rest s).passTick

/-- `n` ticks with no host access between them. -/
def ticks : Nat → State → State
  | 0, s => s
  | n + 1, s => ticks n (tick s)

end Sys2Proof.Machine
end

