-- ==== Sys2Proof/Machine/DisplayLink.lean ====
section
/-! DEFINITION. DisplayLink: the micro-operations, and the procedures and meanings of its six commands (41_displaylink). -/

namespace Sys2Proof.Machine

/-- `writeNibble(n)`, the nibble latch (41_displaylink R70). -/
def writeNibble (c : Config) (n : Nibble) : List Stmt :=
  [.setDb n, .setEn false, .repeatTick c.enSetupTicks,
   .setEn true, .repeatTick c.enHighTicks,
   .setEn false, .emitLatch n, .repeatTick c.enSettleTicks]

/-- `writeByte(rs, b)`, the two-nibble byte write (R71). -/
def writeByte (c : Config) (rs : Level) (b : Byte) : List Stmt :=
  .setRs rs :: (writeNibble c (highNibble b) ++ writeNibble c (lowNibble b))

/-- `for c in bs: writeByte(rs, c)`. -/
def writeBytes (c : Config) (rs : Level) : List Byte → List Stmt
  | [] => []
  | b :: bs => writeByte c rs b ++ writeBytes c rs bs

/-- The procedure of DCLEAR, and the end of DINIT (R76, R73). -/
def clearProc (c : Config) : List Stmt :=
  writeByte c false c.clearOpcode ++ [.repeatTick c.clearWaitTicks]

/-- The procedure of DINIT (R73). -/
def dinitProc (c : Config) : List Stmt :=
  [.setInitd false, .setDOe true, .setRs false, .repeatTick c.initWait0Ticks] ++
  writeNibble c c.funcsetNibble ++ [.repeatTick c.initWait1Ticks] ++
  writeNibble c c.funcsetNibble ++ [.repeatTick c.initWait2Ticks] ++
  writeNibble c c.funcsetNibble ++ [.repeatTick c.initWait3Ticks] ++
  writeNibble c c.mode4Nibble ++ [.repeatTick c.initWait4Ticks] ++
  writeBytes c false c.initTail ++
  clearProc c ++
  [.setInitd true]

/-- The procedure of DCLRROW (R78): position, 16 spaces, position. -/
def clrrowProc (c : Config) (row : Nat) : List Stmt :=
  writeByte c false (positionByte c 0 row) ++
  writeBytes c true (List.replicate 16 c.spaceChar) ++
  writeByte c false (positionByte c 0 row)

/-- `DINIT`: display bring-up (R73). -/
def execDinit (s : State) : Host.Outcome State Fault Refusal :=
  issue .dinit (encode .dinit) (dinitProc s.cfg) s

/-- `DCMD b`: write one command byte (R74). -/
def execDcmd (b : Byte) (s : State) : Host.Outcome State Fault Refusal :=
  issue .dcmd (encode (.dcmd b)) (writeByte s.cfg false b) s

/-- `DDATA b`: write one character-data byte (R75). -/
def execDdata (b : Byte) (s : State) : Host.Outcome State Fault Refusal :=
  issue .ddata (encode (.ddata b)) (writeByte s.cfg true b) s

/-- `DCLEAR`: clear the display (R76). -/
def execDclear (s : State) : Host.Outcome State Fault Refusal :=
  issue .dclear (encode .dclear) (clearProc s.cfg) s

/-- `DSETCUR col, row`: position the cursor (R77). -/
def execDsetcur (col row : Nat) (s : State) : Host.Outcome State Fault Refusal :=
  issue .dsetcur (encode (.dsetcur col row)) (writeByte s.cfg false (positionByte s.cfg col row)) s

/-- `DCLRROW row`: blank one row (R78). -/
def execDclrrow (row : Nat) (s : State) : Host.Outcome State Fault Refusal :=
  issue .dclrrow (encode (.dclrrow row)) (clrrowProc s.cfg row) s

end Sys2Proof.Machine
end

