-- ==== Sys2Proof/Machine/SensorLink.lean ====
section
/-! DEFINITION. SensorLink: the procedure and the meaning of SREAD (40_sensorlink). -/

namespace Sys2Proof.Machine

/-- `waitLevel(level, stage, i)` (40_sensorlink R56). -/
def waitLevel (level : Level) (stage : Stage) (i : Nat) : List Stmt :=
  [.clearWcnt, .sample level stage i]

/-- The loop body of SREAD for bit `i`: the end of its low phase, its high phase, the decision and the shift (R64). -/
def readBit (i : Nat) : List Stmt :=
  waitLevel true .bitLow i ++ waitLevel false .bitHigh i ++ [.shiftBit i]

/-- `for i in 0 .. n-1` from bit `i` on: the bits `i`, `i + 1`, … of `n` (R64). -/
def readBits : Nat → Nat → List Stmt
  | 0, _ => []
  | n + 1, i => readBit i ++ readBits n (i + 1)

/-- The procedure of SREAD (R64). -/
def sreadProc (c : Config) : List Stmt :=
  [.clearOk, .clearResult, .clearAcc, .setSDir true, .repeatTick c.startTicks, .setSDir false] ++
  waitLevel false .ackLow 0 ++
  waitLevel true .ackHigh 0 ++
  waitLevel false .ackEnd 0 ++
  readBits c.frameBits 0 ++
  [.validate]

/-- `SREAD`: read one SensorFrame (R64). -/
def execSread (s : State) : Host.Outcome State Fault Refusal :=
  issue .sread (encode .sread) (sreadProc s.cfg) s

end Sys2Proof.Machine
end

