-- ==== Sys2Proof/Machine/Dispatch.lean ====
section
/-! DEFINITION. One arm per command: the meaning of presenting it (30_encoding R47, R49). -/

namespace Sys2Proof.Machine

def exec (i : Instr) (s : State) : Host.Outcome State Fault Refusal :=
  match i with
  | .sread => Sys2Proof.Machine.execSread s
  | .dinit => Sys2Proof.Machine.execDinit s
  | .dcmd b => Sys2Proof.Machine.execDcmd b s
  | .ddata b => Sys2Proof.Machine.execDdata b s
  | .dclear => Sys2Proof.Machine.execDclear s
  | .dsetcur col row => Sys2Proof.Machine.execDsetcur col row s
  | .dclrrow row => Sys2Proof.Machine.execDclrrow row s

end Sys2Proof.Machine
end

