-- ==== Sys2Proof/Machine/HostPort.lean ====
section
/-! DEFINITION. The register window: the host's reads and writes, presenting a command (20_memory, 30_encoding R49), polling
(R51), and the reset input (70_reset). -/

namespace Sys2Proof.Machine

/-- The value a read of a register returns (20_memory R34, 10_state R25). -/
def readValue (r : Reg) (s : State) : Byte :=
  match r with
  | .cmdl => s.cmdl
  | .cmdh => s.cmdh
  | .status => s.status
  | .frame i => if s.ok then s.frame[i] else Config.freeByte s.draws
  | .reserved => 0x00

/-- How many free values a read takes: one, for a FRAME register while `OK = 0` (10_state R25: "a fresh draw" on each read). -/
def readDraws (r : Reg) (s : State) : Nat :=
  match r with
  | .frame _ => if s.ok then 0 else 1
  | .cmdl => 0
  | .cmdh => 0
  | .status => 0
  | .reserved => 0

/-- The observation gains the access (00_scope R7(a)). -/
def State.logAccess (a : Access) (s : State) : State := { s with accesses := s.accesses ++ [a] }

/-- A read of a register: no state of the block changes (20_memory R35, R40); the observation gains the value and the draw it
used is spent. -/
def readReg (addr : Nat) (r : Reg) (s : State) : State :=
  { s.logAccess (.read addr (readValue r s)) with draws := s.draws + readDraws r s }

/-- A `CMDH` write of `v` (30_encoding R49): store the byte, then present `{v, CMDL}`. The busy test comes before decoding. -/
def present (v : Byte) (s : State) : Host.Outcome State Fault Refusal :=
  let s := { s with cmdh := v }
  if s.busy then .next s.overrun
  else match decodeBytes s.cmdl v with
    | .illegal _ => .next s.illegal
    | .instr i => exec i s

/-- A write of a register (20_memory R34, R36). -/
def writeReg (r : Reg) (v : Byte) (s : State) : Host.Outcome State Fault Refusal :=
  match r with
  | .cmdl => .next { s with cmdl := v }
  | .cmdh => present v s
  | .status => .next s
  | .frame _ => .next s
  | .reserved => .next s

/-- The host's `MemRead` (20_memory R35, R37). -/
def hostRead (addr n : Nat) (s : State) : Host.Outcome State Fault Refusal :=
  match windowOffset s.cfg addr with
  | none => .fault (.outsideWindow addr)
  | some off => if n = 1 then .next (readReg addr (regAt off) s) else .refused (.accessWidth n)

/-- The host's `MemWrite` (20_memory R36, R37). -/
def hostWrite (addr n : Nat) (v : Byte) (s : State) : Host.Outcome State Fault Refusal :=
  match windowOffset s.cfg addr with
  | none => .fault (.outsideWindow addr)
  | some off =>
    if n = 1 then writeReg (regAt off) v (s.logAccess (.write addr v)) else .refused (.accessWidth n)

/-- One poll of `WAITIDLE` (30_encoding R51): a read of STATUS; while it shows BUSY, a tick passes and the host polls again
(log 15). -/
def pollStatus (s : State) : State :=
  let s' := readReg (s.cfg.baseAddr + 2) .status s
  if s.busy then { s' with schedule := .tick :: .waitIdle :: s.schedule } else s'

/-- Whether a reset now interrupts a display operation with the bus driven (70_reset R96(b)). -/
def State.displayLive (s : State) : Bool :=
  match s.seq with
  | .idle => false
  | .running op _ => op.isDisplay && s.dOe

/-- The reset input (70_reset R95, R96): every state element takes its reset value; the inputs still to come and the
observation are not the block's and stay, the latch log with the `Abort(t)` marker of R96(b). -/
def resetNow (s : State) : State :=
  { State.resetWith s.cfg with
    schedule := s.schedule
    sensor := s.sensor
    draws := s.draws
    accesses := s.accesses
    pinTrace := s.pinTrace
    latchLog := if s.displayLive then s.latchLog ++ [.abort s.t] else s.latchLog }

/-- What an event does, once it is taken off the schedule. -/
def react (e : Event) (s : State) : Host.Outcome State Fault Refusal :=
  match e with
  | .tick => .next (tick s)
  | .read addr n => hostRead addr n s
  | .write addr n v => hostWrite addr n v s
  | .waitIdle => .next (pollStatus s)
  | .reset => .next (resetNow s)

end Sys2Proof.Machine
end

