-- ==== Sys2Proof/Machine/Step.lean ====
section
/-! DEFINITION. One step: the next event of the schedule, or a tick where none is listed (00_scope R5, 20_memory R41). -/

namespace Sys2Proof.Machine

/-- One step of a run: a configuration that breaks R9 is refused; otherwise the next event happens, and with no event listed a
tick passes. -/
def step (s : State) : Host.Outcome State Fault Refusal :=
  if s.cfg.Valid then
    match s.schedule with
    | [] => .next (tick s)
    | e :: rest => react e { s with schedule := rest }
  else .refused .badConfig

/-- `s` with the command word `w` about to be presented: the low byte stands in `CMDL`, the block is idle, and the next event is
the host's write of the high byte to `CMDH` (30_encoding R49, log 13). -/
def State.withFetchWord (s : State) (nbits w : Nat) : State :=
  let cw : Word := BitVec.ofNat 16 (w % 2 ^ nbits)
  { s with
    cmdl := lowByte cw
    seq := .idle
    schedule := .write (s.cfg.baseAddr + 1) 1 (highByte cw) :: s.schedule }

end Sys2Proof.Machine
end

