-- ==== Sys2Proof/Machine/Assembler.lean ====
section
/-! DEFINITION. Command programs: the assembler lines and pseudo-instructions, the words they emit, and the reference host
(30_encoding R50 to R52, 41_displaylink R79). -/

namespace Sys2Proof.Machine

/-- One line of a command program (30_encoding R50, R52). Operands are the numbers as written; a text is its characters. -/
inductive Line where
  | sread
  | dinit
  | dcmd (b : Nat)
  | ddata (b : Nat)
  | ddataChar (c : Char)
  | dclear
  | dsetcur (col row : Nat)
  | dclrrow (row : Nat)
  /-- `.word w`: any 16-bit value, including illegal words. -/
  | word (w : Word)
  /-- `DPRINT "text"` (R52(a), 41_displaylink R79). -/
  | dprint (text : List Char)
  /-- `WAITIDLE` (R52(b)). -/
  | waitIdle
  /-- `ISSUE w`: the two host writes with no poll before them (R52(c)). -/
  | issue (w : Word)
  /-- `RDSTAT` (R52(d)). -/
  | rdstat
  /-- `RDFRAME i` (R52(d)). -/
  | rdframe (i : Nat)
deriving DecidableEq, Repr

/-- The ASCII code a character literal stands for (R50); a character that ASCII does not have is an operand out of its range
(log 18). -/
def asciiCode (c : Char) : Option Byte :=
  if c.toNat < 128 then some (BitVec.ofNat 8 c.toNat) else none

/-- A command whose operands are in their ranges emits its word; otherwise no word (R50). -/
def emitWord (i : Instr) : Option (List Word) :=
  if i.wellFormed then some [encode i] else none

/-- `DDATA c` for each character of the text, up to but excluding its NUL (41_displaylink R79). That a text with a character that
has no word emits no word at all, not those of its other characters, is the model's choice (DESIGN CHOICE, log 26). -/
def printWords : List Char → Option (List Word)
  | [] => some []
  | c :: rest =>
    if c.toNat = 0 then some []
    else match asciiCode c, printWords rest with
      | some b, some ws => some (encode (.ddata b) :: ws)
      | _, _ => none

/-- The words a line emits (R50, R52); `none` is an assembly error. The host's own lines emit no word. -/
def Line.words : Line → Option (List Word)
  | .sread => emitWord .sread
  | .dinit => emitWord .dinit
  | .dcmd b => if b < 256 then emitWord (.dcmd (BitVec.ofNat 8 b)) else none
  | .ddata b => if b < 256 then emitWord (.ddata (BitVec.ofNat 8 b)) else none
  | .ddataChar c => (asciiCode c).bind fun b => emitWord (.ddata b)
  | .dclear => emitWord .dclear
  | .dsetcur col row => emitWord (.dsetcur col row)
  | .dclrrow row => emitWord (.dclrrow row)
  | .word w => some [w]
  | .dprint text => printWords text
  | .waitIdle => some []
  | .issue _ => some []
  | .rdstat => some []
  | .rdframe _ => some []

/-- `ISSUE w` (R52(c)): the low byte to `CMDL`, then the high byte to `CMDH`. That no tick passes between the two is the model's
choice (DESIGN CHOICE, log 23). -/
def issueEvents (c : Config) (w : Word) : List Event :=
  [.write c.baseAddr 1 (lowByte w), .write (c.baseAddr + 1) 1 (highByte w)]

/-- What the reference host does for one command word (R51): `WAITIDLE`, then the two writes. That no tick passes between the
last poll and the writes is the model's choice (DESIGN CHOICE, log 23). -/
def commandEvents (c : Config) (w : Word) : List Event :=
  .waitIdle :: issueEvents c w

/-- The reference host's accesses for a program of command words, with the last `WAITIDLE` (R51). It is the eager one: no tick
passes between its accesses but while it waits (DESIGN CHOICE, log 23). -/
def referenceHost (c : Config) : List Word → List Event
  | [] => [.waitIdle]
  | w :: ws => commandEvents c w ++ referenceHost c ws

/-- The host's accesses for one line: each word it emits as the reference host issues it, or the access it stands for
(R51, R52). `RDFRAME i` names a byte of the frame (log 18). A read line waits for nothing: that no `WAITIDLE` stands before it is
the model's choice (DESIGN CHOICE, log 25). -/
def Line.events (c : Config) (l : Line) : Option (List Event) :=
  match l with
  | .waitIdle => some [.waitIdle]
  | .issue w => some (issueEvents c w)
  | .rdstat => some [.read (c.baseAddr + 2) 1]
  | .rdframe i => if i < 5 then some [.read (c.baseAddr + 4 + i) 1] else none
  | .sread | .dinit | .dcmd _ | .ddata _ | .ddataChar _ | .dclear | .dsetcur _ _ | .dclrrow _ | .word _ | .dprint _ =>
    l.words.map fun ws => ws.flatMap (commandEvents c)

/-- A command program as the reference host runs it (R51): its lines in order, then one more `WAITIDLE`. No tick passes between
two lines but while the host waits (DESIGN CHOICE, log 23). A program with an assembly error in any line has no accesses at all:
that such a line is not skipped, with the other lines run, is the model's choice (DESIGN CHOICE, log 26). -/
def programEvents (c : Config) : List Line → Option (List Event)
  | [] => some [.waitIdle]
  | l :: ls =>
    match l.events c, programEvents c ls with
    | some es, some rest => some (es ++ rest)
    | _, _ => none

end Sys2Proof.Machine
end

