-- ==== Sys2Proof/Safety.lean ====
section
/-! DEFINITION. What counts as a legal state of the block (the invariant of its steps) and as a safe run (the host's obligations,
70_reset R97 to R103), and the observations claims are stated in. -/

namespace Sys2Proof.Machine

/-! Procedures. -/

/-- The whole procedure of a command (40_sensorlink R64, 41_displaylink R73 to R78). -/
def procedureOf (c : Config) : Instr → List Stmt
  | .sread => sreadProc c
  | .dinit => dinitProc c
  | .dcmd b => writeByte c false b
  | .ddata b => writeByte c true b
  | .dclear => clearProc c
  | .dsetcur col row => writeByte c false (positionByte c col row)
  | .dclrrow row => clrrowProc c row

/-- `rest` is a point of the procedure `p`: a tail of it, its first `repeat n: tick()` perhaps partly counted down. -/
def PointOf (p rest : List Stmt) : Prop :=
  ∃ before after, p = before ++ after ∧
    (rest = after ∨
      ∃ n m tail, after = .repeatTick n :: tail ∧ m ≤ n ∧ rest = .repeatTick m :: tail)

/-- `SEQ` (10_state R28): the running operation is the command in `IR`, at a point of its procedure with a tick still to come
(R20: no operation is running that has no tick left). -/
def State.SeqLegal (s : State) : Prop :=
  match s.seq with
  | .idle => True
  | .running op rest =>
    pending rest ≠ [] ∧
      ∃ i : Instr, i.wellFormed = true ∧ i.op = op ∧ s.ir = encode i ∧ PointOf (procedureOf s.cfg i) rest

/-! The enable pulse and the latch log (41_displaylink R68, R70). -/

/-- The latch event of two samples (R68): in consecutive ticks with the bus driven, `EN` is 1 and then 0. The display receives
the `RS` and `DB` levels of the earlier one. -/
def latchBetween (p q : PinSample) : List LogEntry :=
  match p.bus, q.bus with
  | some a, some b => if p.t + 1 = q.t ∧ a.en = true ∧ b.en = false then [.latch q.t a.rs a.db] else []
  | _, _ => []

/-- The latch events that a pin trace shows, in order (R68). -/
def latchEvents : List PinSample → List LogEntry
  | [] => []
  | [_] => []
  | p :: q :: rest => latchBetween p q ++ latchEvents (q :: rest)

/-- Whether a log entry is a latch event and not an `Abort` marker. -/
def LogEntry.isLatch : LogEntry → Bool
  | .latch _ _ _ => true
  | .abort _ => false

/-- The enable discipline of R70 on the statements still to run, with `EN` at `en` and the data lines at `db`: while `EN` is
high neither the data lines, `RS` nor the output enable are written; `EN` rises into a tick; it falls into a tick, together
with the one latch event of the nibble on the data lines; and the procedure ends with `EN` low. -/
def enableDiscipline : Level → Nibble → List Stmt → Bool
  | en, _, [] => !en
  | en, _, .setDb n :: rest => !en && enableDiscipline en n rest
  | en, db, .setRs _ :: rest => !en && enableDiscipline en db rest
  | en, db, .setDOe _ :: rest => !en && enableDiscipline en db rest
  | _, db, .setEn true :: rest => rest.head?.any Stmt.takesTick && enableDiscipline true db rest
  | true, db, .setEn false :: .emitLatch n :: rest =>
    n == db && rest.head?.any Stmt.takesTick && enableDiscipline false db rest
  | true, _, .setEn false :: _ => false
  | false, db, .setEn false :: rest => enableDiscipline false db rest
  | _, _, .emitLatch _ :: _ => false
  | en, db, .clearOk :: rest => enableDiscipline en db rest
  | en, db, .clearResult :: rest => enableDiscipline en db rest
  | en, db, .clearAcc :: rest => enableDiscipline en db rest
  | en, db, .setSDir _ :: rest => enableDiscipline en db rest
  | en, db, .clearWcnt :: rest => enableDiscipline en db rest
  | en, db, .sample _ _ _ :: rest => enableDiscipline en db rest
  | en, db, .shiftBit _ :: rest => enableDiscipline en db rest
  | en, db, .validate :: rest => enableDiscipline en db rest
  | en, db, .setInitd _ :: rest => enableDiscipline en db rest
  | en, db, .repeatTick _ :: rest => enableDiscipline en db rest

/-- The statements still to run: none while idle. -/
def Seq.rest : Seq → List Stmt
  | .idle => []
  | .running _ rest => rest

/-- The bus of the last tick, if that tick is `T` itself (not one before a reset). -/
def State.lastBus (s : State) : Option BusLevels :=
  s.pinTrace.getLast?.bind fun p => if p.t = s.t then p.bus else none

/-- The latch log holds exactly the latch events of the pin trace (R68), and the pins, `EN` and the statements to come agree:
`EN` is as the last tick showed it, and while it is high the bus is as the last tick showed it. -/
def State.LatchLegal (s : State) : Prop :=
  s.latchLog.filter LogEntry.isLatch = latchEvents s.pinTrace ∧
  enableDiscipline s.dEn s.dDb s.seq.rest = true ∧
  (∀ p ∈ s.pinTrace, 1 ≤ p.t) ∧
  (s.dEn = true → s.lastBus = s.bus) ∧
  (s.dEn = false → ∀ b, s.lastBus = some b → b.en = false)

/-! The registers. -/

/-- What the registers say of each other between steps: the sensor pin (10_state R26), the display bus (R27, R70), the result
bits (R21, R22, R30) and the counters (R29). -/
structure State.RegsLegal (s : State) : Prop where
  /-- `S_OUT` is the constant 0 (R26). -/
  sOut_low : s.sOut = false
  /-- An idle block drives neither the sensor line nor `EN` high. -/
  idle_pins : s.seq = .idle → s.sDir = false ∧ s.dEn = false
  /-- Only SREAD drives the sensor line (R26). -/
  display_sDir : ∀ op rest, s.seq = .running op rest → op.isDisplay = true → s.sDir = false
  /-- SREAD drives the line until its procedure has released it (40_sensorlink R64). -/
  sread_sDir : ∀ rest, s.seq = .running .sread rest → s.sDir = rest.contains (.setSDir false)
  /-- While an SREAD runs, `OK = 0`, `LAST_RESULT = NONE` and the display is left alone (R21, R30, 40_sensorlink R64). -/
  sread_result : ∀ rest, s.seq = .running .sread rest → s.ok = false ∧ s.lastResult = .none ∧ s.dEn = false
  /-- While a DINIT runs, `INITD = 0` and the bus is driven (R22, R27). -/
  dinit_bits : ∀ rest, s.seq = .running .dinit rest → s.initd = false ∧ s.dOe = true
  /-- `OK` is 1 exactly after a validated frame (R21, R30). -/
  ok_iff : s.ok = true ↔ s.lastResult = .okFrame
  /-- While `OK = 1`, `FRAME` holds a frame whose checksum matches (R21, R25). -/
  ok_frame : s.ok = true → checksumValid s.frame = true
  /-- A display that is brought up has its bus driven (R22, R27). -/
  initd_dOe : s.initd = true → s.dOe = true
  /-- `BIT_I` is in 0..40 (10_state R15). -/
  bitI_le : s.bitI ≤ s.cfg.frameBits
  /-- `WCNT` is in 0..`WAIT_CEIL` (10_state R15). -/
  wcnt_le : s.wcnt ≤ s.cfg.waitCeil
  /-- A wait in progress has not reached its ceiling (40_sensorlink R56). -/
  wait_open : ∀ op level stage i rest, s.seq = .running op (.sample level stage i :: rest) → s.wcnt < s.cfg.waitCeil

/-- The invariant of the block. -/
def State.Legal (s : State) : Prop :=
  s.cfg.Valid ∧ s.SeqLegal ∧ s.RegsLegal ∧ s.LatchLegal

/-! The host's obligations (70_reset R97 to R103). The block enforces none of them but the refusal of R98. -/

/-- The obligation an event breaks. -/
inductive Hazard where
  /-- R98: a command presented while BUSY = 1. -/
  | issueWhileBusy
  /-- R97(2), R99: a display command other than DINIT while INITD = 0. -/
  | displayBeforeInit
  /-- R100: an SREAD less than READ_SPACING_TICKS after the last one completed, or after power-on. -/
  | sreadTooSoon
  /-- R101: a FRAME read while BUSY = 1 or OK = 0. -/
  | frameUnspecified
  /-- R102: a display command less than CLEAR_WAIT_TICKS after a DCMD of CLEAR_OPCODE completed. -/
  | rawClearTooSoon
  /-- R103: a CMDH write with no CMDL write since the last one. -/
  | staleCmdl
deriving DecidableEq, Repr

/-- What the obligations need to remember of a run; no part of the block. -/
structure Monitor where
  /-- Ticks since the last SREAD completed, or since power-on (R100). -/
  sinceSread : Nat
  /-- Ticks since the last DCMD of CLEAR_OPCODE completed, if any did (R102). -/
  sinceRawClear : Option Nat
  /-- CMDL has been written since the last CMDH write (R103). -/
  cmdlWritten : Bool
deriving DecidableEq, Repr

/-- The monitor at power-on. -/
def Monitor.powerOn : Monitor := ⟨0, none, false⟩

/-- The obligations that presenting `{v, CMDL}` would break. -/
def presentHazards (m : Monitor) (v : Byte) (s : State) : List Hazard :=
  (if s.busy then [.issueWhileBusy] else []) ++
  (if m.cmdlWritten then [] else [.staleCmdl]) ++
  match decodeBytes s.cmdl v with
  | .illegal _ => []
  | .instr i =>
    (if i.op = .sread ∧ m.sinceSread < s.cfg.readSpacingTicks then [.sreadTooSoon] else []) ++
    (if i.op.isDisplay ∧ i.op ≠ .dinit ∧ s.initd = false then [.displayBeforeInit] else []) ++
    (if i.op.isDisplay ∧ m.sinceRawClear.any (· < s.cfg.clearWaitTicks) then [.rawClearTooSoon] else [])

/-- The obligations that the next event of the schedule breaks. -/
def hazards (m : Monitor) (s : State) : List Hazard :=
  match s.schedule.head? with
  | some (.write addr _ v) =>
    match (windowOffset s.cfg addr).map regAt with
    | some .cmdh => presentHazards m v s
    | _ => []
  | some (.read addr _) =>
    match (windowOffset s.cfg addr).map regAt with
    | some (.frame _) => if s.busy = false ∧ s.ok = true then [] else [.frameUnspecified]
    | _ => []
  | some .tick => []
  | some .waitIdle => []
  | some .reset => []
  | none => []

/-- Whether the operation `op` ended between `s` and `s'`. -/
def ended (op : Op) (s s' : State) : Bool :=
  match s.seq with
  | .idle => false
  | .running op' _ => op' == op && !s'.busy

/-- The monitor after a tick from `s` to `s'`. -/
def Monitor.afterTick (m : Monitor) (s s' : State) : Monitor :=
  { m with
    sinceSread := if ended .sread s s' then 0 else m.sinceSread + 1
    sinceRawClear :=
      if ended .dcmd s s' && (lowByte s.ir == s.cfg.clearOpcode) then some 0 else m.sinceRawClear.map (· + 1) }

/-- The monitor after a step from `s` to `s'`. A reset starts it anew as at power-on: that this ends a wait of R102 still running
is the model's choice (DESIGN CHOICE, log 17). -/
def Monitor.next (m : Monitor) (s s' : State) : Monitor :=
  match s.schedule.head? with
  | some (.write addr _ _) =>
    match (windowOffset s.cfg addr).map regAt with
    | some .cmdl => { m with cmdlWritten := true }
    | some .cmdh => { m with cmdlWritten := false }
    | _ => m
  | some (.read _ _) => m
  | some .waitIdle => m
  | some .reset => .powerOn
  | some .tick => m.afterTick s s'
  | none => m.afterTick s s'

/-- A run of `n` steps in which the host keeps every obligation and nothing stops. -/
def safeRun : Nat → Monitor → State → Prop
  | 0, _, _ => True
  | n + 1, m, s => hazards m s = [] ∧ ∃ s', step s = .next s' ∧ safeRun n (m.next s s') s'

end Sys2Proof.Machine
end

