-- ==== Sys2Proof/Certificates/Slice0/Obligations.lean ====
section
/-! DEFINITION. The statements for the provers. Each docstring names the rule of spec/ it formalises. -/

open Sys2Proof Sys2Proof.Machine

/-! ### Words the statements share -/

namespace Sys2Proof.Machine

/-- The command `i` is accepted in `s`, keeps BUSY at 1 for `d` ticks and no longer, and leaves `final`, the pin trace apart. -/
def Completes (i : Instr) (s : State) (d : Nat) (final : State) : Prop :=
  ∃ u, exec i s = .next u ∧ (∀ k, k < d → (ticks k u).busy = true) ∧
    ticks d u = { final with pinTrace := (ticks d u).pinTrace }

/-- `s` after `d` ticks in which an operation ended: the clock and the environment have moved on (10_state R31). -/
def State.elapsed (s : State) (d : Nat) : State :=
  { s with t := s.t + d, sensor := s.sensor.drop d, draws := s.draws + d, seq := .idle }

/-- The latch event of a nibble whose first tick is `t0 + 1` (41_displaylink R70): stamped with its first settle tick. -/
def nibbleLatch (c : Config) (t0 : Nat) (rs : Level) (n : Nibble) : LogEntry :=
  .latch (t0 + c.enSetupTicks + c.enHighTicks + 1) rs n

/-- The two latch events of a byte whose first tick is `t0 + 1` (41_displaylink R71). -/
def byteLatches (c : Config) (t0 : Nat) (rs : Level) (b : Byte) : List LogEntry :=
  [nibbleLatch c t0 rs (highNibble b), nibbleLatch c (t0 + c.nibbleTicks) rs (lowNibble b)]

/-- The latch events of bytes sent one after another from tick `t0 + 1` on. -/
def bytesLatches (c : Config) : Nat → Level → List Byte → List LogEntry
  | _, _, [] => []
  | t0, rs, b :: bs => byteLatches c t0 rs b ++ bytesLatches c (t0 + c.byteTicks) rs bs

/-- Latch events reach the log only while the bus is driven (41_displaylink R69). -/
def State.withLatches (s : State) (es : List LogEntry) : State :=
  { s with latchLog := s.latchLog ++ drivenOnly s.dOe es }

/-- The final state of a command that sends one byte (41_displaylink R74, R75, R77): the display registers as the byte leaves
them and its two latch events. -/
def State.sentByte (s : State) (w : Word) (rs : Level) (b : Byte) : State :=
  { (s.elapsed s.cfg.byteTicks).withLatches (byteLatches s.cfg s.t rs b) with
    ir := w, dRs := rs, dDb := lowNibble b, dEn := false }

/-- The samples of a wait for `level` that succeeds on its `k`-th one (40_sensorlink R56). -/
def waitSamples (level : Level) (k : Nat) : List Level := List.replicate (k - 1) (!level) ++ [level]

/-- The 83 waits of an SREAD in order, each with its level, stage and index (40_sensorlink R57). -/
def sreadWaits : List (Level × Stage × Nat) :=
  [(false, .ackLow, 0), (true, .ackHigh, 0), (false, .ackEnd, 0)] ++
  (List.range 40).flatMap fun i => [(true, .bitLow, i), (false, .bitHigh, i)]

/-- The samples of waits that succeed on the positions `ks`. -/
def samplesOf (waits : List (Level × Stage × Nat)) (ks : List Nat) : List Level :=
  (List.zipWith (fun w k => waitSamples w.1 k) waits ks).flatten

/-- The operation `op` stands at `k`: what it has to do is what `k` says, whether or not the statements before the next tick
have been performed already (at acceptance they have, 30_encoding R49; between two later ticks they have not, log 7). -/
def State.StandsAt (s : State) (op : Op) (k : List Stmt) : Prop :=
  ∃ r, s.seq = .running op r ∧ pending r = pending k ∧ runDue r s = runDue k s

/-- EN in the `k`-th tick of a nibble (41_displaylink R70): high for EN_HIGH_TICKS after EN_SETUP_TICKS. -/
def enLevel (c : Config) (k : Nat) : Level := decide (c.enSetupTicks < k ∧ k ≤ c.enSetupTicks + c.enHighTicks)

/-- The bus in the `k`-th tick of a byte on a driven bus (41_displaylink R70, R71): the high nibble in the first N ticks, the low
nibble in the next N, each with its enable pulse, RS at `rs`. -/
def byteBus (c : Config) (rs : Level) (b : Byte) (k : Nat) : BusLevels :=
  if k ≤ c.nibbleTicks then ⟨b.extractLsb' 4 4, enLevel c k, rs⟩
  else ⟨b.extractLsb' 0 4, enLevel c (k - c.nibbleTicks), rs⟩

/-- The number and the bus of the last recorded tick. -/
def State.lastPins (s : State) : Option (Nat × Option BusLevels) :=
  s.pinTrace.getLast?.map fun p => (p.t, p.bus)

/-- The next event is a host write of the byte `v` at window offset `off`. -/
def State.NextWrite (s : State) (off : Nat) (v : Byte) (es : List Event) : Prop :=
  s.cfg.Valid ∧ off < 16 ∧ s.schedule = .write (s.cfg.baseAddr + off) 1 v :: es

/-- `s` with that write taken off the schedule and recorded. -/
def State.wrote (s : State) (off : Nat) (v : Byte) (es : List Event) : State :=
  { s with schedule := es, accesses := s.accesses ++ [.write (s.cfg.baseAddr + off) v] }

/-- The next event is a host read of the byte at window offset `off`. -/
def State.NextRead (s : State) (off : Nat) (es : List Event) : Prop :=
  s.cfg.Valid ∧ off < 16 ∧ s.schedule = .read (s.cfg.baseAddr + off) 1 :: es

/-- `s` with that read taken off the schedule and recorded with the value `v` it returned. -/
def State.gaveBack (s : State) (off : Nat) (v : Byte) (es : List Event) : State :=
  { s with schedule := es, accesses := s.accesses ++ [.read (s.cfg.baseAddr + off) v] }

end Sys2Proof.Machine

/-! ### Encoding -/

/-- Every well-formed command survives the encoder and the decoder (30_encoding R47, R50). -/
def Obligations.DecodeEncodeRoundTrip : Prop :=
  ∀ i : Instr, i.wellFormed = true → decode (encode i) = .instr i

/-- Every word that decodes is the word of what it decodes to, which is well-formed: each word has one meaning (R47). -/
def Obligations.EncodeDecodeRoundTrip : Prop :=
  ∀ (w : Word) (i : Instr), decode w = .instr i → i.wellFormed = true ∧ encode i = w

/-- R47: a word selects an operation iff its bits under the row's mask are the row's match, and at most one row matches. -/
def Obligations.OpcodeMapSelectsOperation : Prop :=
  ∀ w : Word,
    (∀ r ∈ opcodeTable, (w &&& r.mask = r.pattern ↔ ∃ i, decode w = .instr i ∧ i.op = r.op)) ∧
    opcodeTable.Pairwise (fun r r' => ¬ (w &&& r.mask = r.pattern ∧ w &&& r'.mask = r'.pattern))

/-- R48: the illegal words are exactly those of its clauses (a), (b) and (c), every other word is one of the seven operations,
and an illegal word presented to an idle block sets ILL and changes nothing else (its bytes stay in CMDH and CMDL, R18). -/
def Obligations.IllegalWordsExactly : Prop :=
  (∀ w : Word, (∃ why, decode w = .illegal why) ↔
    opField w = 0x0 ∨
    0x8 ≤ (opField w).toNat ∨
    (opField w ∈ [0x1, 0x2, 0x3, 0x4, 0x5] ∧ aField w ≠ 0) ∨
    (opField w ∈ [0x1, 0x2, 0x5, 0x7] ∧ immField w ≠ 0) ∨
    (opField w = 0x6 ∧ immHighField w ≠ 0)) ∧
  (∀ w : Word, (∃ why, decode w = .illegal why) ∨ ∃ i, decode w = .instr i) ∧
  (∀ (s : State) (v : Byte) (es : List Event) (why : Illegal), s.NextWrite 1 v es → s.busy = false →
    decode (wordOf v s.cmdl) = .illegal why →
    step s = .next { s.wrote 1 v es with cmdh := v, ill := true })

/-- R46: the operand of DCMD and DDATA is IMM as it is, the column of DSETCUR is IMM[3:0], a row selects row 1 iff A is not 0,
and nothing is scaled at decode. -/
def Obligations.OperandsAreFields : Prop :=
  ∀ w : Word,
    (∀ b, (decode w = .instr (.dcmd b) ∨ decode w = .instr (.ddata b)) → b = w.extractLsb' 0 8) ∧
    (∀ col row, decode w = .instr (.dsetcur col row) →
      col = (w.extractLsb' 0 4).toNat ∧ rowSelect row = decide (w.extractLsb' 8 4 ≠ 0)) ∧
    (∀ row, decode w = .instr (.dclrrow row) → rowSelect row = decide (w.extractLsb' 8 4 ≠ 0))

/-- Words written out from the encodings of R47 and R50, one of each command, and words R48 calls illegal (vectors V10). -/
def Obligations.SpecWordsDecode : Prop :=
  decode 0b0001000000000000#16 = .instr .sread ∧
  decode 0b0010000000000000#16 = .instr .dinit ∧
  decode 0b0011000000101000#16 = .instr (.dcmd 0x28) ∧
  decode 0b0100000001000001#16 = .instr (.ddata 0x41) ∧
  decode 0b0101000000000000#16 = .instr .dclear ∧
  decode 0b0110000100000101#16 = .instr (.dsetcur 5 1) ∧
  decode 0b0111001100000000#16 = .instr (.dclrrow 3) ∧
  (∃ why, decode 0x0000#16 = .illegal why) ∧
  (∃ why, decode 0x6010#16 = .illegal why)

/-- The assembler lines (30_encoding R50, R52, 41_displaylink R79): each command line emits its word, `.word` any word, DPRINT
one DDATA for each ASCII character up to its NUL, and an operand out of its range emits no word. That a character ASCII does not
have is out of range is the model's reading (log 18). -/
def Obligations.AssemblerEmitsWords : Prop :=
  Line.words .sread = some [0x1000] ∧ Line.words .dinit = some [0x2000] ∧ Line.words .dclear = some [0x5000] ∧
  (∀ b, Line.words (.dcmd b) = if b ≤ 255 then some [0x3000 ||| BitVec.ofNat 16 b] else none) ∧
  (∀ b, Line.words (.ddata b) = if b ≤ 255 then some [0x4000 ||| BitVec.ofNat 16 b] else none) ∧
  (∀ col row, Line.words (.dsetcur col row) =
    if col ≤ 15 ∧ row ≤ 15 then some [BitVec.ofNat 16 (0x6000 + row * 0x100 + col)] else none) ∧
  (∀ row, Line.words (.dclrrow row) = if row ≤ 15 then some [BitVec.ofNat 16 (0x7000 + row * 0x100)] else none) ∧
  (∀ w, Line.words (.word w) = some [w]) ∧
  (∀ c : Char, Line.words (.ddataChar c) = if c.toNat < 128 then some [0x4000 ||| BitVec.ofNat 16 c.toNat] else none) ∧
  (∀ text : List Char, (∀ c ∈ text, 1 ≤ c.toNat ∧ c.toNat < 128) →
    ∀ tail, (tail = [] ∨ ∃ rest, tail = Char.ofNat 0 :: rest) →
      Line.words (.dprint (text ++ tail)) = some (text.map fun c => 0x4000 ||| BitVec.ofNat 16 c.toNat))

/-! ### The register window -/

/-- A CMDH write that completes a legal word on an idle block runs the decoded command: step is exec, at the state with the byte
stored, the access recorded and the event taken off the schedule (30_encoding R49). -/
def Obligations.StepRunsDecodedCommand : Prop :=
  ∀ (s : State) (v : Byte) (es : List Event) (i : Instr), s.NextWrite 1 v es → s.busy = false →
    decode (wordOf v s.cmdl) = .instr i →
    step s = exec i { s.wrote 1 v es with cmdh := v }

/-- R49: a CMDH write stores its byte and presents the word; while BUSY it sets OVR and no more, and the word is not decoded;
else an illegal word sets ILL and no more; else the word goes to IR, BUSY and SEQ show the operation, and the statements before
its first tick are done. -/
def Obligations.PresentingACommand : Prop :=
  ∀ (s : State) (v : Byte) (es : List Event), s.NextWrite 1 v es →
    (s.busy = true → step s = .next { s.wrote 1 v es with cmdh := v, ovr := true }) ∧
    (s.busy = false → ∀ why, decode (wordOf v s.cmdl) = .illegal why →
      step s = .next { s.wrote 1 v es with cmdh := v, ill := true }) ∧
    (s.busy = false → ∀ i, decode (wordOf v s.cmdl) = .instr i →
      ∃ u, step s = .next u ∧ u.ir = wordOf v s.cmdl ∧ u.busy = true ∧
        u.seq = .running i.op (pending (procedureOf s.cfg i)) ∧
        u = { runDue (procedureOf s.cfg i) { s.wrote 1 v es with cmdh := v } with ir := u.ir, seq := u.seq })

/-- R34: what a read of each window offset returns and what a write of it does. -/
def Obligations.RegisterMap : Prop :=
  (∀ (s : State) (off : Nat) (es : List Event), s.NextRead off es →
    ∃ v u, step s = .next u ∧ u.accesses = s.accesses ++ [.read (s.cfg.baseAddr + off) v] ∧
      (off = 0 → v = s.cmdl) ∧
      (off = 1 → v = s.cmdh) ∧
      (off = 2 → v = 0#3 ++ (BitVec.ofBool s.ovr ++ (BitVec.ofBool s.ill ++ (BitVec.ofBool s.initd ++
        (BitVec.ofBool s.ok ++ BitVec.ofBool s.busy))))) ∧
      (∀ i : Fin 5, off = 4 + i.val → v = if s.ok then s.frame[i] else Config.freeByte s.draws) ∧
      (off = 3 ∨ 9 ≤ off → v = 0x00)) ∧
  (∀ (s : State) (off : Nat) (v : Byte) (es : List Event), s.NextWrite off v es →
    (off = 0 → step s = .next { s.wrote 0 v es with cmdl := v }) ∧
    (off = 1 → ∃ u, step s = .next u ∧ u.cmdh = v ∧ present v (s.wrote 1 v es) = .next u) ∧
    (2 ≤ off → step s = .next (s.wrote off v es)))

/-- R18: CMDL and CMDH hold the command word; a write stores the byte whether or not a command is accepted and leaves a running
operation alone; a read returns the stored byte, 0x00 after reset; a CMDL write does nothing else. -/
def Obligations.CommandRegistersHoldTheirBytes : Prop :=
  (∀ (s : State) (v : Byte) (es : List Event), s.NextWrite 0 v es → step s = .next { s.wrote 0 v es with cmdl := v }) ∧
  (∀ (s : State) (v : Byte) (es : List Event), s.NextWrite 1 v es →
    ∃ u, step s = .next u ∧ u.cmdh = v ∧ u.cmdl = s.cmdl ∧ (s.busy = true → u.seq = s.seq ∧ u.ir = s.ir) ∧
      (s.busy = false → ∀ i, decode (v ++ s.cmdl) = .instr i → u.ir = v ++ s.cmdl)) ∧
  (∀ (s : State) (es : List Event), s.NextRead 0 es → step s = .next (s.gaveBack 0 s.cmdl es)) ∧
  (∀ (s : State) (es : List Event), s.NextRead 1 es → step s = .next (s.gaveBack 1 s.cmdh es)) ∧
  (∀ c : Config, (State.resetWith c).cmdl = 0x00 ∧ (State.resetWith c).cmdh = 0x00)

/-- R19: STATUS reads {000, OVR, ILL, INITD, OK, BUSY} bit by bit with no side effect, and a host write of it is ignored. -/
def Obligations.StatusRegister : Prop :=
  (∀ (s : State) (es : List Event), s.NextRead 2 es →
    ∃ v : Byte, step s = .next (s.gaveBack 2 v es) ∧
      v.getLsbD 0 = s.busy ∧ v.getLsbD 1 = s.ok ∧ v.getLsbD 2 = s.initd ∧ v.getLsbD 3 = s.ill ∧ v.getLsbD 4 = s.ovr ∧
      v.extractLsb' 5 3 = 0) ∧
  (∀ (s : State) (v : Byte) (es : List Event), s.NextWrite 2 v es → step s = .next (s.wrote 2 v es)) ∧
  (∀ c : Config, (State.resetWith c).status = 0x00)

/-- R25, its reads: while OK = 1 a read of FRAME[i] returns byte i of the stored frame; while OK = 0 it returns a free value and
spends it, so that the next such read has another; a host write is ignored. A statement about a free value: it holds whatever
the opaque Config.freeByte is. -/
def Obligations.FrameReadIsFreeWhileNotOk : Prop :=
  (∀ (s : State) (i : Fin 5) (es : List Event), s.NextRead (4 + i.val) es → s.ok = true →
    step s = .next (s.gaveBack (4 + i.val) s.frame[i] es)) ∧
  (∀ (s : State) (i : Fin 5) (es : List Event), s.NextRead (4 + i.val) es → s.ok = false →
    step s = .next { s.gaveBack (4 + i.val) (Config.freeByte s.draws) es with draws := s.draws + 1 }) ∧
  (∀ (s : State) (i : Fin 5) (v : Byte) (es : List Event), s.NextWrite (4 + i.val) v es →
    step s = .next (s.wrote (4 + i.val) v es))

/-- R36: a write to a read-only or reserved offset changes no state and raises nothing; every other write has the effect of
R34. -/
def Obligations.ReadOnlyWritesIgnored : Prop :=
  ∀ (s : State) (off : Nat) (v : Byte) (es : List Event), s.NextWrite off v es →
    (2 ≤ off → step s = .next (s.wrote off v es)) ∧
    (off = 0 → step s = .next { s.wrote 0 v es with cmdl := v }) ∧
    (off = 1 → step s = present v (s.wrote 1 v es))

/-- A read changes no state of the block: only the observation grows, and only a FRAME read while OK = 0 spends a free value
(20_memory R35, R40). -/
def Obligations.ReadsChangeNothing : Prop :=
  ∀ (s : State) (off : Nat) (es : List Event), s.NextRead off es →
    ∃ v k, step s = .next { s.gaveBack off v es with draws := s.draws + k } ∧
      (k ≠ 0 → 4 ≤ off ∧ off ≤ 8 ∧ s.ok = false)

/-- R37: a window access of any width but one byte is refused, and every one-byte access of the window, at any offset, is
performed. -/
def Obligations.OtherWidthsRefused : Prop :=
  ∀ (s : State) (off n : Nat) (v : Byte) (es : List Event), s.cfg.Valid → off < 16 →
    (n ≠ 1 → s.schedule = .read (s.cfg.baseAddr + off) n :: es → step s = .refused (.accessWidth n)) ∧
    (n ≠ 1 → s.schedule = .write (s.cfg.baseAddr + off) n v :: es → step s = .refused (.accessWidth n)) ∧
    (n = 1 → s.schedule = .read (s.cfg.baseAddr + off) n :: es → ∃ u, step s = .next u) ∧
    (n = 1 → s.schedule = .write (s.cfg.baseAddr + off) n v :: es → ∃ u, step s = .next u)

/-- The model's choice (log 10): an access at a host address outside the window (R33 gives the block no other address) is a
fault. -/
def Obligations.OutsideWindowFaults : Prop :=
  ∀ (s : State) (addr n : Nat) (v : Byte) (es : List Event), s.cfg.Valid →
    (addr < s.cfg.baseAddr ∨ s.cfg.baseAddr + 16 ≤ addr) →
    (s.schedule = .read addr n :: es → step s = .fault (.outsideWindow addr)) ∧
    (s.schedule = .write addr n v :: es → step s = .fault (.outsideWindow addr))

/-- A configuration that breaks one of the constraints of 00_scope R9 is refused, and one that breaks none is not, if its frame
has 5 bytes and 40 bits; that another frame size is refused too is the model's choice (log 24). -/
def Obligations.BadConfigurationRefused : Prop :=
  ∀ s : State, step s = .refused .badConfig ↔
    s.cfg.startTicks < 18000 ∨ s.cfg.waitCeil < 1 ∨ s.cfg.bitThreshold < 1 ∨ s.cfg.waitCeil ≤ s.cfg.bitThreshold ∨
    s.cfg.enSetupTicks < 1 ∨ s.cfg.enHighTicks < 1 ∨ s.cfg.enSettleTicks < 100 ∨
    s.cfg.initWait1Ticks ≤ s.cfg.initWait2Ticks ∨ s.cfg.initWait2Ticks ≤ s.cfg.initWait3Ticks ∨
    s.cfg.cols ≠ 16 ∨ s.cfg.rows ≠ 2 ∨ s.cfg.frameBytes ≠ 5 ∨ s.cfg.frameBits ≠ 40

/-- A step stops only for the reasons the model names: a bad configuration, an access outside the window, an access of another
width (20_memory R37). In every other state, whatever operation runs, it answers a next state (60_exceptions R84: no trap
exists). That an access outside the window stops is the model's choice (log 10), as is the refusal of a frame size other than 5
bytes and 40 bits (log 24). -/
def Obligations.StepStopsOnlyByName : Prop :=
  ∀ s : State, (∃ u, step s = .next u) ↔
    s.cfg.Valid ∧ ∀ e es, s.schedule = e :: es →
      ∀ addr n, ((e = .read addr n ∨ ∃ v, e = .write addr n v) →
        s.cfg.baseAddr ≤ addr ∧ addr < s.cfg.baseAddr + 16 ∧ n = 1)

/-- With no event listed, a step is a tick, and `n` steps are `n` ticks (00_scope R5, R6; log 6). -/
def Obligations.RunWithoutHostIsTicks : Prop :=
  ∀ (s : State) (n : Nat), s.cfg.Valid → s.schedule = [] → Host.Core.run Sys2Proof.core n s = .next (ticks n s)

/-- One poll of WAITIDLE reads STATUS; while it shows BUSY a tick is let pass and the poll is repeated (30_encoding R51; that the
gap is one tick is the model's choice, log 15). -/
def Obligations.WaitIdlePolls : Prop :=
  ∀ (s : State) (es : List Event), s.cfg.Valid → s.schedule = .waitIdle :: es →
    (s.busy = false → step s = .next (s.gaveBack 2 s.status es)) ∧
    (s.busy = true → step s = .next (s.gaveBack 2 s.status (.tick :: .waitIdle :: es)))

/-! ### Reset -/

/-- R32: the reset value of every element. -/
def Obligations.ResetValues : Prop :=
  ∀ c : Config, let r := State.resetWith c
    r.cmdl = 0x00 ∧ r.cmdh = 0x00 ∧ r.status = 0x00 ∧ r.busy = false ∧ r.ok = false ∧ r.initd = false ∧ r.ill = false ∧
    r.ovr = false ∧ (∀ i : Fin 5, readValue (.frame i) r = Config.freeByte r.draws) ∧ r.sDir = false ∧ r.sOut = false ∧
    r.dOe = false ∧ r.dDb = 0x0 ∧ r.dEn = false ∧ r.dRs = false ∧ r.seq = .idle ∧ r.ir = 0x0000 ∧
    (∀ i : Fin 5, r.acc[i] = 0) ∧ r.bitI = 0 ∧ r.wcnt = 0 ∧ r.lastResult = .none ∧ r.t = 0

/-- R95: a reset, in any state and whatever runs, sets every element to its reset value; the running operation is abandoned, the
sticky bits clear, the sensor line is released, the bus goes high-impedance and T restarts. FRAME is left open: R32 calls it
unspecified. -/
def Obligations.ResetFromAnyState : Prop :=
  ∀ (s : State) (es : List Event), s.cfg.Valid → s.schedule = .reset :: es →
    ∃ u, step s = .next u ∧
      u = { State.resetWith s.cfg with
            frame := u.frame, schedule := es, sensor := s.sensor, draws := s.draws, accesses := s.accesses, pinTrace := s.pinTrace,
            latchLog := u.latchLog } ∧
      u.busy = false ∧ u.ill = false ∧ u.ovr = false ∧ u.sDir = false ∧ u.bus = none ∧ u.t = 0

/-- A reset during a display operation with the bus driven appends Abort(t) to the latch log, t the tick at which it came; any
other reset leaves the log alone (70_reset R96(b), (c), vectors V52, V53). -/
def Obligations.ResetAbortMarker : Prop :=
  ∀ (s u : State) (es : List Event), s.schedule = .reset :: es → step s = .next u →
    ((∃ op rest, s.seq = .running op rest ∧ op ≠ .sread) → s.dOe = true → u.latchLog = s.latchLog ++ [.abort s.t]) ∧
    ((s.seq = .idle ∨ (∃ rest, s.seq = .running .sread rest) ∨ s.dOe = false) → u.latchLog = s.latchLog)

/-! ### Presenting and accepting each command -/

/-- SREAD is accepted by an idle block: OK and LAST_RESULT are cleared, ACC and BIT_I are cleared, the line is driven, and the
start pulse is to come (40_sensorlink R64, its part at acceptance). -/
def Obligations.SreadAccepted : Prop :=
  ∀ s : State, s.cfg.Valid → s.busy = false →
    exec .sread s = .next { s with
      ir := 0x1000, ok := false, lastResult := .none, acc := Vector.replicate 5 0x00, bitI := 0, sDir := true,
      seq := .running .sread (pending (sreadProc s.cfg)) }

/-- DCMD, DDATA and DSETCUR are accepted by an idle block: RS and the high nibble are on the bus with EN low
(41_displaylink R70, R71, R74, R75, R77, their parts at acceptance). That a position address beyond a byte is taken mod 256 is the
model's reading of R10 (log 21). -/
def Obligations.ByteCommandsAccepted : Prop :=
  ∀ (s : State) (b : Byte) (col row : Nat), s.cfg.Valid → s.busy = false → col < 16 → row < 16 →
    exec (.dcmd b) s = .next { s with
      ir := 0x3000 ||| b.setWidth 16, dRs := false, dDb := b.extractLsb' 4 4, dEn := false,
      seq := .running .dcmd (pending (writeByte s.cfg false b)) } ∧
    exec (.ddata b) s = .next { s with
      ir := 0x4000 ||| b.setWidth 16, dRs := true, dDb := b.extractLsb' 4 4, dEn := false,
      seq := .running .ddata (pending (writeByte s.cfg true b)) } ∧
    exec (.dsetcur col row) s = .next { s with
      ir := BitVec.ofNat 16 (0x6000 + row * 0x100 + col), dRs := false,
      dDb := (positionByte s.cfg col row).extractLsb' 4 4, dEn := false,
      seq := .running .dsetcur (pending (writeByte s.cfg false (positionByte s.cfg col row))) }

/-- DCLEAR and DCLRROW are accepted by an idle block: RS is low and the high nibble of their first byte is on the bus with EN low
(41_displaylink R76, R78, their parts at acceptance). That a position address beyond a byte is taken mod 256 is the model's reading
of R10 (log 21). -/
def Obligations.ClearCommandsAccepted : Prop :=
  ∀ (s : State) (row : Nat), s.cfg.Valid → s.busy = false → row < 16 →
    exec .dclear s = .next { s with
      ir := 0x5000, dRs := false, dDb := s.cfg.clearOpcode.extractLsb' 4 4, dEn := false,
      seq := .running .dclear (pending (clearProc s.cfg)) } ∧
    exec (.dclrrow row) s = .next { s with
      ir := BitVec.ofNat 16 (0x7000 + row * 0x100), dRs := false,
      dDb := (positionByte s.cfg 0 row).extractLsb' 4 4, dEn := false,
      seq := .running .dclrrow (pending (clrrowProc s.cfg row)) }

/-- DINIT is accepted by an idle block: INITD is cleared, the bus is driven and RS is low; with no wait before the first pulse
the first nibble is on the bus too (41_displaylink R73, its part at acceptance). -/
def Obligations.DinitAccepted : Prop :=
  ∀ s : State, s.cfg.Valid → s.busy = false →
    exec .dinit s = .next { s with
      ir := 0x2000, initd := false, dOe := true, dRs := false,
      dDb := if s.cfg.initWait0Ticks = 0 then s.cfg.funcsetNibble else s.dDb,
      dEn := if s.cfg.initWait0Ticks = 0 then false else s.dEn,
      seq := .running .dinit (pending (dinitProc s.cfg)) }

/-- R24: any command presented while an operation runs sets OVR and changes nothing else, and the operation continues. -/
def Obligations.PresentedWhileBusyOverruns : Prop :=
  ∀ (i : Instr) (s : State), s.busy = true → exec i s = .next { s with ovr := true }

/-- No accepted operation takes zero ticks, and BUSY is 1 at once (10_state R20). -/
def Obligations.AcceptedIsBusy : Prop :=
  ∀ (i : Instr) (s : State), s.cfg.Valid → s.busy = false →
    ∃ u, exec i s = .next u ∧ u.busy = true ∧ u.ir = encode i ∧ ∃ rest, u.seq = .running i.op rest

/-- The frame of presenting a command: the host's registers, the error bits (but OVR while busy), FRAME, the counter WCNT, the
clock, the inputs and the whole observation are left alone by every command; SREAD leaves the display alone; a display command
leaves SensorLink alone; only DINIT touches INITD and D_OE (10_state R21, R22, R26, R27, R43). -/
def Obligations.PresentingFrame : Prop :=
  ∀ (i : Instr) (s u : State), s.cfg.Valid → exec i s = .next u →
    (u.cfg = s.cfg ∧ u.cmdl = s.cmdl ∧ u.cmdh = s.cmdh ∧ u.ill = s.ill ∧ u.frame = s.frame ∧ u.sOut = s.sOut ∧
      u.wcnt = s.wcnt ∧ u.t = s.t ∧ u.schedule = s.schedule ∧ u.sensor = s.sensor ∧ u.draws = s.draws ∧
      u.accesses = s.accesses ∧ u.pinTrace = s.pinTrace ∧ u.latchLog = s.latchLog) ∧
    (s.busy = false → u.ovr = s.ovr) ∧
    (i.op = .sread → u.initd = s.initd ∧ u.dOe = s.dOe ∧ u.dDb = s.dDb ∧ u.dEn = s.dEn ∧ u.dRs = s.dRs) ∧
    (i.op ≠ .sread → u.ok = s.ok ∧ u.lastResult = s.lastResult ∧ u.acc = s.acc ∧ u.bitI = s.bitI ∧ u.sDir = s.sDir) ∧
    (i.op ≠ .dinit → u.initd = s.initd ∧ u.dOe = s.dOe)

/-- What every tick leaves alone, whatever runs: the host's registers, ILL and OVR, IR, S_OUT, the schedule and the accesses; it
advances T by one, takes one level of the environment and records one pin sample (10_state R18, R23, R24, R28, R31). From a
legal state the sample shows the pin output registers (R26, R27): the bus high-impedance exactly while D_OE = 0 and else D_DB,
D_EN and D_RS, and the sensor line's direction S_DIR, whatever the tick belongs to. That the sample agrees with the registers as
they stand after the tick is the model's reading (DEDUCED, log 7): the statements between two ticks wait for the second one. -/
def Obligations.TickFrame : Prop :=
  ∀ s : State, let u := tick s
    u.cfg = s.cfg ∧ u.cmdl = s.cmdl ∧ u.cmdh = s.cmdh ∧ u.ill = s.ill ∧ u.ovr = s.ovr ∧ u.ir = s.ir ∧ u.sOut = s.sOut ∧
    u.schedule = s.schedule ∧ u.accesses = s.accesses ∧ u.t = s.t + 1 ∧ u.sensor = s.sensor.tail ∧
    (∃ p, u.pinTrace = s.pinTrace ++ [p] ∧ p.t = s.t + 1 ∧
      (s.Legal → p.sDir = u.sDir ∧ (u.dOe = false → p.bus = none) ∧ (u.dOe = true → p.bus = some ⟨u.dDb, u.dEn, u.dRs⟩))) ∧
    (s.seq = .idle → u = { s with t := u.t, sensor := u.sensor, draws := u.draws, pinTrace := u.pinTrace })

/-! ### DisplayLink -/

/-- R70: the nibble latch, wherever an operation comes to it: first in its procedure or later. For EN_SETUP_TICKS the nibble is
on the data lines with EN low, for EN_HIGH_TICKS EN is high, for EN_SETTLE_TICKS it is low again; DB and RS do not move; one
latch event is made if the bus is driven, stamped with the first settle tick; D_DB is left at the nibble, EN low and RS alone;
then the procedure goes on with `rest`, or ends if no tick is left (`settle`). -/
def Obligations.NibbleLatch : Prop :=
  ∀ (s : State) (op : Op) (n : Nibble) (rest : List Stmt), s.cfg.Valid →
    s.StandsAt op (writeNibble s.cfg n ++ rest) →
    (∀ k, k < s.cfg.nibbleTicks → (ticks k s).busy = true) ∧
    (∀ k, 1 ≤ k → k ≤ s.cfg.nibbleTicks →
      (ticks k s).lastPins = some (s.t + k, if s.dOe then some ⟨n, enLevel s.cfg k, s.dRs⟩ else none)) ∧
    ticks s.cfg.nibbleTicks s =
      { settle op rest
          { (s.elapsed s.cfg.nibbleTicks).withLatches
              [.latch (s.t + s.cfg.enSetupTicks + s.cfg.enHighTicks + 1) s.dRs n] with dDb := n, dEn := false } with
        pinTrace := (ticks s.cfg.nibbleTicks s).pinTrace }

/-- R71: the byte write, wherever an operation comes to it: high nibble, then low nibble, each with its enable pulse, with RS at
its level in every tick and kept; then the procedure goes on with `rest`, or ends if no tick is left (`settle`). -/
def Obligations.ByteWrite : Prop :=
  ∀ (s : State) (op : Op) (rs : Level) (b : Byte) (rest : List Stmt), s.cfg.Valid →
    s.StandsAt op (writeByte s.cfg rs b ++ rest) →
    (∀ k, k < s.cfg.byteTicks → (ticks k s).busy = true) ∧
    (∀ k, 1 ≤ k → k ≤ s.cfg.byteTicks →
      (ticks k s).lastPins = some (s.t + k, if s.dOe then some (byteBus s.cfg rs b k) else none)) ∧
    ticks s.cfg.byteTicks s =
      { settle op rest
          { (s.elapsed s.cfg.byteTicks).withLatches
              [.latch (s.t + s.cfg.enSetupTicks + s.cfg.enHighTicks + 1) rs (b.extractLsb' 4 4),
               .latch (s.t + s.cfg.nibbleTicks + s.cfg.enSetupTicks + s.cfg.enHighTicks + 1) rs (b.extractLsb' 0 4)] with
            dRs := rs, dDb := b.extractLsb' 0 4, dEn := false } with
        pinTrace := (ticks s.cfg.byteTicks s).pinTrace }

/-- The display pins from acceptance on (41_displaylink R70, R71, vectors V7, V40, V41): an accepted command stands at its whole
procedure; if the procedure begins with a byte (every display command but DINIT), the bus in operation ticks 1 to B is that of
the byte, from the first tick on, and high-impedance throughout if it is not driven. With DINIT's first nibble, at operation
ticks INIT_WAIT0_TICKS + 1 to INIT_WAIT0_TICKS + N, on the bus it drives. -/
def Obligations.DisplayPinsFromAcceptance : Prop :=
  ∀ (i : Instr) (s : State), s.cfg.Valid → s.busy = false → ∃ u, exec i s = .next u ∧
    u.StandsAt i.op (procedureOf s.cfg i) ∧
    (∀ rs b rest, procedureOf s.cfg i = writeByte s.cfg rs b ++ rest →
      ∀ k, 1 ≤ k → k ≤ s.cfg.byteTicks →
        (ticks k u).lastPins = some (s.t + k, if s.dOe then some (byteBus s.cfg rs b k) else none)) ∧
    (i = .dinit → ∀ k, 1 ≤ k → k ≤ s.cfg.nibbleTicks →
      (ticks (s.cfg.initWait0Ticks + k) u).lastPins =
        some (s.t + s.cfg.initWait0Ticks + k, some ⟨s.cfg.funcsetNibble, enLevel s.cfg k, false⟩))

/-- R74: DCMD sends its byte with RS low in B ticks and changes nothing else. -/
def Obligations.DcmdCompletes : Prop :=
  ∀ (s : State) (b : Byte), s.cfg.Valid → s.busy = false →
    Completes (.dcmd b) s s.cfg.byteTicks (s.sentByte (0x3000 ||| b.setWidth 16) false b)

/-- R75: DDATA sends its byte with RS high in B ticks and changes nothing else. -/
def Obligations.DdataCompletes : Prop :=
  ∀ (s : State) (b : Byte), s.cfg.Valid → s.busy = false →
    Completes (.ddata b) s s.cfg.byteTicks (s.sentByte (0x4000 ||| b.setWidth 16) true b)

/-- R77: DSETCUR sends DDRAM_SET | (col, plus ROW1_OFFSET for any nonzero row) with RS low in B ticks and changes nothing
else. That an address beyond a byte, which R9 allows above ROW1_OFFSET 240, is taken mod 256 is the model's reading of R10
(log 21). -/
def Obligations.DsetcurCompletes : Prop :=
  ∀ (s : State) (col row : Nat), s.cfg.Valid → s.busy = false → col < 16 → row < 16 →
    Completes (.dsetcur col row) s s.cfg.byteTicks
      (s.sentByte (BitVec.ofNat 16 (0x6000 + row * 0x100 + col)) false
        (s.cfg.ddramSet ||| BitVec.ofNat 8 (col + if row ≠ 0 then s.cfg.row1Offset else 0)))

/-- The position byte at the reference values (41_displaylink R77, vector V5): 0x80 + col in row 0, 0xC0 + col in any other
row. -/
def Obligations.CursorBytesAtReference : Prop :=
  ∀ col row : Nat, col < 16 →
    (positionByte Config.reference col row).toNat = (if row = 0 then 0x80 else 0xC0) + col

/-- R76: DCLEAR sends the clear command, then waits CLEAR_WAIT_TICKS with BUSY at 1. -/
def Obligations.DclearCompletes : Prop :=
  ∀ s : State, s.cfg.Valid → s.busy = false →
    Completes .dclear s (s.cfg.byteTicks + s.cfg.clearWaitTicks)
      { (s.elapsed (s.cfg.byteTicks + s.cfg.clearWaitTicks)).withLatches (byteLatches s.cfg s.t false s.cfg.clearOpcode) with
        ir := 0x5000, dRs := false, dDb := lowNibble s.cfg.clearOpcode, dEn := false }

/-- R78: DCLRROW sends the position byte of column 0, sixteen spaces with RS high, and the position byte again, in 18 B ticks:
36 latch events if the bus is driven. That a ROW1_OFFSET beyond a byte, which R9 allows, is taken mod 256 is the model's reading of
R10 (log 21). -/
def Obligations.DclrrowCompletes : Prop :=
  ∀ (s : State) (row : Nat), s.cfg.Valid → s.busy = false → row < 16 →
    let p := s.cfg.ddramSet ||| BitVec.ofNat 8 (if row ≠ 0 then s.cfg.row1Offset else 0)
    let B := s.cfg.byteTicks
    Completes (.dclrrow row) s (18 * B)
      { (s.elapsed (18 * B)).withLatches
          (byteLatches s.cfg s.t false p ++ bytesLatches s.cfg (s.t + B) true (List.replicate 16 s.cfg.spaceChar) ++
            byteLatches s.cfg (s.t + 17 * B) false p) with
        ir := BitVec.ofNat 16 (0x7000 + row * 0x100), dRs := false, dDb := lowNibble p, dEn := false }

/-- R73: DINIT drives the bus, sends the three function-set nibbles, the mode-select nibble, INIT_TAIL and the clear command,
each followed by its wait, and sets INITD at its end. -/
def Obligations.DinitCompletes : Prop :=
  ∀ s : State, s.cfg.Valid → s.busy = false →
    let c := s.cfg
    let N := c.nibbleTicks
    let t1 := s.t + c.initWait0Ticks
    let t2 := t1 + N + c.initWait1Ticks
    let t3 := t2 + N + c.initWait2Ticks
    let t4 := t3 + N + c.initWait3Ticks
    let t5 := t4 + N + c.initWait4Ticks
    let t6 := t5 + c.byteTicks * c.initTail.length
    let d := c.initWait0Ticks + 4 * N + c.initWait1Ticks + c.initWait2Ticks + c.initWait3Ticks + c.initWait4Ticks +
      c.byteTicks * c.initTail.length + c.byteTicks + c.clearWaitTicks
    Completes .dinit s d
      { s.elapsed d with
        latchLog := s.latchLog ++
          [nibbleLatch c t1 false c.funcsetNibble, nibbleLatch c t2 false c.funcsetNibble,
            nibbleLatch c t3 false c.funcsetNibble, nibbleLatch c t4 false c.mode4Nibble] ++
          bytesLatches c t5 false c.initTail ++ byteLatches c t6 false c.clearOpcode
        ir := 0x2000, initd := true, dOe := true, dRs := false, dDb := lowNibble c.clearOpcode, dEn := false }

/-! ### SensorLink -/

/-- R54: in a tick the line is low if the block drives it, and as the sensor environment sets it if not; the level the tick
records is that one. -/
def Obligations.SensorLineLevel : Prop :=
  ∀ s : State, s.Legal → ∃ p, (tick s).pinTrace = s.pinTrace ++ [p] ∧ p.t = s.t + 1 ∧
    (p.sDir = true → p.sLine = false) ∧
    (p.sDir = false → (∀ b rest, s.sensor = b :: rest → p.sLine = b) ∧ (s.sensor = [] → p.sLine = Config.freeLevel s.draws))

/-- R56: a wait, after whatever takes no tick before it in the procedure (`due`), succeeds on the first of its samples at the
level, at any position up to the ceiling, which WCNT then holds, and the procedure goes on with `rest` or ends if no tick is
left (`settle`); it ends the operation after WAIT_CEIL samples that all differ from the level. -/
def Obligations.BoundedWait : Prop :=
  ∀ (s : State) (op : Op) (level : Level) (stage : Stage) (i : Nat) (due rest : List Stmt) (later : List Level),
    s.cfg.Valid → (∀ st ∈ due, Stmt.takesTick st = false) →
    s.seq = .running op (due ++ waitLevel level stage i ++ rest) →
    let s1 := runDue due s
    s1.sDir = false →
    (∀ k, 1 ≤ k → k ≤ s.cfg.waitCeil → s.sensor = waitSamples level k ++ later →
      (∀ j, j < k → (ticks j s).busy = true) ∧
      ticks k s = { settle op rest { s1.elapsed k with wcnt := k } with pinTrace := (ticks k s).pinTrace }) ∧
    (s.sensor = List.replicate s.cfg.waitCeil (!level) ++ later →
      (∀ j, j < s.cfg.waitCeil → (ticks j s).busy = true) ∧
      ticks s.cfg.waitCeil s = { s1.elapsed s.cfg.waitCeil with
        wcnt := s.cfg.waitCeil, lastResult := .timeout stage i, pinTrace := (ticks s.cfg.waitCeil s).pinTrace })

/-- R60: a bit is 1 iff its high phase lasts more than BIT_THRESHOLD samples; at the threshold it is 0. -/
def Obligations.BitDecisionIsStrict : Prop :=
  ∀ (s : State) (i : Nat),
    (s.wcnt > s.cfg.bitThreshold → (perform (.shiftBit i) s).acc = shiftInto s.acc i true) ∧
    (s.wcnt ≤ s.cfg.bitThreshold → (perform (.shiftBit i) s).acc = shiftInto s.acc i false)

/-- R61: accepting SREAD clears ACC and BIT_I; deciding bit i shifts it into ACC[i div 8] at the low end and sets BIT_I to
i + 1; so, of forty bits shifted into a cleared ACC, bit i of the stream is bit 7 - (i mod 8) of ACC[i div 8]. -/
def Obligations.FrameAssembly : Prop :=
  (∀ s : State, s.cfg.Valid → s.busy = false →
    ∃ u, exec .sread s = .next u ∧ u.acc = Vector.replicate 5 0x00 ∧ u.bitI = 0) ∧
  (∀ (s : State) (i : Nat), i < 40 →
    perform (.shiftBit i) s = { s with acc := (perform (.shiftBit i) s).acc, bitI := i + 1 } ∧
    ∀ j, j < 5 → (frameByte (perform (.shiftBit i) s).acc j).toNat =
      if j = i / 8 then (2 * (frameByte s.acc j).toNat + if s.wcnt > s.cfg.bitThreshold then 1 else 0) % 256
      else (frameByte s.acc j).toNat) ∧
  (∀ bits : List Level, bits.length = 40 →
    ∀ i : Nat, i < 40 →
      (frameByte ((bits.zipIdx).foldl (fun f (b, j) => shiftInto f j b) (Vector.replicate 5 0x00)) (i / 8)).getLsbD (7 - i % 8)
        = bits[i]?.getD false)

/-- R63: validation compares the sum of the first four bytes, taken in the integers and reduced mod 256, with the fifth; a match
fills FRAME and sets OK, a mismatch leaves OK and FRAME and records CHECKSUM_FAIL. -/
def Obligations.ChecksumValidation : Prop :=
  ∀ s : State,
    (((s.acc[0].toNat + s.acc[1].toNat + s.acc[2].toNat + s.acc[3].toNat) % 256 = s.acc[4].toNat) →
      perform .validate s = { s with frame := s.acc, ok := true, lastResult := .okFrame }) ∧
    (((s.acc[0].toNat + s.acc[1].toNat + s.acc[2].toNat + s.acc[3].toNat) % 256 ≠ s.acc[4].toNat) →
      perform .validate s = { s with lastResult := .checksumFail })

/-- R64, the complete frame: for every environment whose 83 waits all succeed, at any positions within the ceiling, SREAD takes
START_TICKS plus the positions' sum, drives the line low in exactly its first START_TICKS ticks, decodes bit i from the length
of its high phase, and ends with OK = 1 and FRAME the received bytes if the checksum matches, else with OK = 0 and
CHECKSUM_FAIL; the display is untouched. BIT_I and WCNT are left open: nothing may depend on them after an SREAD
(10_state R29). -/
def Obligations.SreadReadsFrame : Prop :=
  ∀ (s : State) (lead later : List Level) (ks : List Nat), s.cfg.Valid → s.busy = false →
    lead.length = s.cfg.startTicks → ks.length = 83 → (∀ k ∈ ks, 1 ≤ k ∧ k ≤ s.cfg.waitCeil) →
    s.sensor = lead ++ samplesOf sreadWaits ks ++ later →
    ∃ u, exec .sread s = .next u ∧
      let d := s.cfg.startTicks + ks.sum
      let e := ticks d u
      (∀ k, k < d → (ticks k u).busy = true) ∧
      (∀ k, 1 ≤ k → k ≤ d → ((ticks k u).pinTrace.getLast?.map (·.sDir)) = some (decide (k ≤ s.cfg.startTicks))) ∧
      (∀ i, i < 40 →
        (frameByte e.acc (i / 8)).getLsbD (7 - i % 8) = decide ((ks[4 + 2 * i]?.getD 0) > s.cfg.bitThreshold)) ∧
      e = { s.elapsed d with
        ir := 0x1000
        ok := checksumValid e.acc
        frame := if checksumValid e.acc then e.acc else s.frame
        sDir := false
        acc := e.acc
        bitI := e.bitI
        wcnt := e.wcnt
        lastResult := if checksumValid e.acc then .okFrame else .checksumFail
        pinTrace := e.pinTrace }

/-- R58 and R81 code 1: for every wait of the 83, if the waits before it succeed and it sees WAIT_CEIL samples that are not its
level, SREAD ends at the end of that tick with TIMEOUT(stage, i), OK = 0, the line released and no frame. -/
def Obligations.SreadTimesOut : Prop :=
  ∀ (s : State) (lead later : List Level) (ks : List Nat) (passed after : List (Level × Stage × Nat))
    (level : Level) (stage : Stage) (i : Nat), s.cfg.Valid → s.busy = false →
    lead.length = s.cfg.startTicks → sreadWaits = passed ++ (level, stage, i) :: after →
    ks.length = passed.length → (∀ k ∈ ks, 1 ≤ k ∧ k ≤ s.cfg.waitCeil) →
    s.sensor = lead ++ samplesOf passed ks ++ List.replicate s.cfg.waitCeil (!level) ++ later →
    ∃ u, exec .sread s = .next u ∧
      let d := s.cfg.startTicks + ks.sum + s.cfg.waitCeil
      let e := ticks d u
      (∀ k, k < d → (ticks k u).busy = true) ∧
      e = { s.elapsed d with
        ir := 0x1000
        ok := false
        sDir := false
        acc := e.acc
        bitI := e.bitI
        wcnt := e.wcnt
        lastResult := .timeout stage i
        pinTrace := e.pinTrace }

/-- Every SREAD ends within START_TICKS + 83 WAIT_CEIL ticks, whatever the sensor does (40_sensorlink R66), and not before
START_TICKS have passed. -/
def Obligations.SreadNeverHangs : Prop :=
  ∀ s : State, s.cfg.Valid → s.busy = false →
    ∃ u d, exec .sread s = .next u ∧ s.cfg.startTicks < d ∧ d ≤ s.cfg.startTicks + 83 * s.cfg.waitCeil ∧
      (∀ k, k < d → (ticks k u).busy = true) ∧ (ticks d u).busy = false

/-! ### Rules over the whole machine -/

/-- OK rises only at the end of an SREAD with a valid frame, which FRAME then holds, and falls only when an SREAD is accepted or
at reset (10_state R21). -/
def Obligations.OkChangesOnlyBySread : Prop :=
  ∀ s u : State, s.Legal → step s = .next u →
    (s.ok = false → u.ok = true →
      (∃ rest, s.seq = .running .sread rest) ∧ u.seq = .idle ∧ checksumValid u.acc = true ∧ u.frame = u.acc ∧
        u.lastResult = .okFrame) ∧
    (s.ok = true → u.ok = false →
      (∃ es, s.schedule = .reset :: es) ∨ (s.busy = false ∧ ∃ rest, u.seq = .running .sread rest))

/-- INITD rises only at the end of a DINIT, and falls only when a DINIT is accepted or at reset (10_state R22). -/
def Obligations.InitdChangesOnlyByDinit : Prop :=
  ∀ s u : State, s.Legal → step s = .next u →
    (s.initd = false → u.initd = true → (∃ rest, s.seq = .running .dinit rest) ∧ u.seq = .idle) ∧
    (s.initd = true → u.initd = false →
      (∃ es, s.schedule = .reset :: es) ∨ (s.busy = false ∧ ∃ rest, u.seq = .running .dinit rest))

/-- ILL and OVR are sticky: only a reset clears them; ILL rises only when an illegal word is presented to an idle block, OVR only
when a word is presented to a busy one (10_state R23, R24, 60_exceptions R85). -/
def Obligations.ErrorBitsAreSticky : Prop :=
  ∀ s u : State, step s = .next u →
    (s.ill = true → u.ill = true ∨ ∃ es, s.schedule = .reset :: es) ∧
    (s.ovr = true → u.ovr = true ∨ ∃ es, s.schedule = .reset :: es) ∧
    (s.ill = false → u.ill = true → s.busy = false ∧
      ∃ v es, s.schedule = .write (s.cfg.baseAddr + 1) 1 v :: es ∧ ∃ why, decode (wordOf v s.cmdl) = .illegal why) ∧
    (s.ovr = false → u.ovr = true → s.busy = true ∧
      ∃ v es, s.schedule = .write (s.cfg.baseAddr + 1) 1 v :: es)

/-- While an operation runs, no host access changes it: any event but a tick and a reset leaves SEQ, IR, the pins, SensorLink's
registers, the result bits, FRAME, T and the latch log as they were (10_state R18, R24, 20_memory R43). -/
def Obligations.RunningOperationUndisturbed : Prop :=
  ∀ (s u : State) (e : Event) (es : List Event), s.busy = true → s.schedule = e :: es → e ≠ .tick → e ≠ .reset →
    step s = .next u →
    u = { s with cmdl := u.cmdl, cmdh := u.cmdh, ovr := u.ovr, schedule := u.schedule, draws := u.draws, accesses := u.accesses }

/-- Only SREAD drives the sensor line, and it never drives it high (10_state R26): in the registers after any step from a legal
state, and in the pins of every tick from one. -/
def Obligations.OnlySreadDrivesTheLine : Prop :=
  ∀ s u : State, s.Legal → step s = .next u →
    u.sOut = false ∧ (u.sDir = true → ∃ rest, u.seq = .running .sread rest) ∧
    (∀ p, u.pinTrace = s.pinTrace ++ [p] → p.sDir = true → p.sLine = false ∧ ∃ rest, s.seq = .running .sread rest)

/-- The latch log after any step from a legal state holds exactly the latch events the pin trace shows: EN high in one tick and
low in the next with the bus driven, with the RS and DB of the earlier one (41_displaylink R68). That a latch event is not in the
log before the tick that shows the fall is the model's reading (DEDUCED, log 7). -/
def Obligations.LatchLogIsEnableFalls : Prop :=
  ∀ s u : State, s.Legal → step s = .next u →
    u.latchLog.filter LogEntry.isLatch = latchEvents u.pinTrace

/-- The invariant holds after reset, at every valid configuration. -/
def Obligations.ResetIsLegal : Prop :=
  ∀ c : Config, c.Valid → (State.resetWith c).Legal

/-- Every step keeps the invariant: SEQ stays a point of the procedure of the command in IR, the registers agree, the enable
discipline holds and the latch log is what the pins show. That registers, pins and latch log agree between two ticks is the
model's reading (DEDUCED, log 7). -/
def Obligations.StepKeepsLegal : Prop :=
  ∀ s u : State, s.Legal → step s = .next u → u.Legal

/-- A host that keeps its obligations never sets OVR (70_reset R98). -/
def Obligations.HazardFreeStepNeverOverruns : Prop :=
  ∀ (m : Monitor) (s u : State), hazards m s = [] → step s = .next u → u.ovr = true → s.ovr = true

/-- The reference host never sets OVR, whatever words it is given, however the operations last and however many ticks pass
between its accesses (30_encoding R51, 00_scope R5): `es` is any interleaving of its accesses with ticks. The polling gap of
WAITIDLE is the model's choice (log 15). -/
def Obligations.ReferenceHostNeverOverruns : Prop :=
  ∀ (ws : List Word) (es : List Event) (s : State) (n : Nat) (u : State), s.cfg.Valid → s.ovr = false →
    es.filter (· != .tick) = referenceHost s.cfg ws → s.schedule = es →
    Host.Core.run Sys2Proof.core n s = .next u → u.ovr = false
end

