-- ==== Sys2Proof/Laws/State.lean ====
section
/-! SUPPORT. For each named update of the state, what every field is after it. -/

namespace Sys2Proof.Machine

@[simp] theorem drivenOnly_true (es : List LogEntry) : drivenOnly true es = es := rfl
@[simp] theorem drivenOnly_false (es : List LogEntry) : drivenOnly false es = [] := rfl
@[simp] theorem drivenOnly_nil (b : Bool) : drivenOnly b [] = [] := by cases b <;> rfl
theorem drivenOnly_append (b : Bool) (xs ys : List LogEntry) :
    drivenOnly b (xs ++ ys) = drivenOnly b xs ++ drivenOnly b ys := by cases b <;> rfl

/-! `overrun` -/

@[simp] theorem overrun_cfg (s : State) : (s.overrun).cfg = s.cfg := rfl
@[simp] theorem overrun_cmdl (s : State) : (s.overrun).cmdl = s.cmdl := rfl
@[simp] theorem overrun_cmdh (s : State) : (s.overrun).cmdh = s.cmdh := rfl
@[simp] theorem overrun_ok (s : State) : (s.overrun).ok = s.ok := rfl
@[simp] theorem overrun_initd (s : State) : (s.overrun).initd = s.initd := rfl
@[simp] theorem overrun_ill (s : State) : (s.overrun).ill = s.ill := rfl
@[simp] theorem overrun_ovr (s : State) : (s.overrun).ovr = true := rfl
@[simp] theorem overrun_frame (s : State) : (s.overrun).frame = s.frame := rfl
@[simp] theorem overrun_sDir (s : State) : (s.overrun).sDir = s.sDir := rfl
@[simp] theorem overrun_sOut (s : State) : (s.overrun).sOut = s.sOut := rfl
@[simp] theorem overrun_dOe (s : State) : (s.overrun).dOe = s.dOe := rfl
@[simp] theorem overrun_dDb (s : State) : (s.overrun).dDb = s.dDb := rfl
@[simp] theorem overrun_dEn (s : State) : (s.overrun).dEn = s.dEn := rfl
@[simp] theorem overrun_dRs (s : State) : (s.overrun).dRs = s.dRs := rfl
@[simp] theorem overrun_seq (s : State) : (s.overrun).seq = s.seq := rfl
@[simp] theorem overrun_ir (s : State) : (s.overrun).ir = s.ir := rfl
@[simp] theorem overrun_acc (s : State) : (s.overrun).acc = s.acc := rfl
@[simp] theorem overrun_bitI (s : State) : (s.overrun).bitI = s.bitI := rfl
@[simp] theorem overrun_wcnt (s : State) : (s.overrun).wcnt = s.wcnt := rfl
@[simp] theorem overrun_lastResult (s : State) : (s.overrun).lastResult = s.lastResult := rfl
@[simp] theorem overrun_t (s : State) : (s.overrun).t = s.t := rfl
@[simp] theorem overrun_schedule (s : State) : (s.overrun).schedule = s.schedule := rfl
@[simp] theorem overrun_sensor (s : State) : (s.overrun).sensor = s.sensor := rfl
@[simp] theorem overrun_draws (s : State) : (s.overrun).draws = s.draws := rfl
@[simp] theorem overrun_accesses (s : State) : (s.overrun).accesses = s.accesses := rfl
@[simp] theorem overrun_pinTrace (s : State) : (s.overrun).pinTrace = s.pinTrace := rfl
@[simp] theorem overrun_latchLog (s : State) : (s.overrun).latchLog = s.latchLog := rfl

/-! `illegal` -/

@[simp] theorem illegal_cfg (s : State) : (s.illegal).cfg = s.cfg := rfl
@[simp] theorem illegal_cmdl (s : State) : (s.illegal).cmdl = s.cmdl := rfl
@[simp] theorem illegal_cmdh (s : State) : (s.illegal).cmdh = s.cmdh := rfl
@[simp] theorem illegal_ok (s : State) : (s.illegal).ok = s.ok := rfl
@[simp] theorem illegal_initd (s : State) : (s.illegal).initd = s.initd := rfl
@[simp] theorem illegal_ill (s : State) : (s.illegal).ill = true := rfl
@[simp] theorem illegal_ovr (s : State) : (s.illegal).ovr = s.ovr := rfl
@[simp] theorem illegal_frame (s : State) : (s.illegal).frame = s.frame := rfl
@[simp] theorem illegal_sDir (s : State) : (s.illegal).sDir = s.sDir := rfl
@[simp] theorem illegal_sOut (s : State) : (s.illegal).sOut = s.sOut := rfl
@[simp] theorem illegal_dOe (s : State) : (s.illegal).dOe = s.dOe := rfl
@[simp] theorem illegal_dDb (s : State) : (s.illegal).dDb = s.dDb := rfl
@[simp] theorem illegal_dEn (s : State) : (s.illegal).dEn = s.dEn := rfl
@[simp] theorem illegal_dRs (s : State) : (s.illegal).dRs = s.dRs := rfl
@[simp] theorem illegal_seq (s : State) : (s.illegal).seq = s.seq := rfl
@[simp] theorem illegal_ir (s : State) : (s.illegal).ir = s.ir := rfl
@[simp] theorem illegal_acc (s : State) : (s.illegal).acc = s.acc := rfl
@[simp] theorem illegal_bitI (s : State) : (s.illegal).bitI = s.bitI := rfl
@[simp] theorem illegal_wcnt (s : State) : (s.illegal).wcnt = s.wcnt := rfl
@[simp] theorem illegal_lastResult (s : State) : (s.illegal).lastResult = s.lastResult := rfl
@[simp] theorem illegal_t (s : State) : (s.illegal).t = s.t := rfl
@[simp] theorem illegal_schedule (s : State) : (s.illegal).schedule = s.schedule := rfl
@[simp] theorem illegal_sensor (s : State) : (s.illegal).sensor = s.sensor := rfl
@[simp] theorem illegal_draws (s : State) : (s.illegal).draws = s.draws := rfl
@[simp] theorem illegal_accesses (s : State) : (s.illegal).accesses = s.accesses := rfl
@[simp] theorem illegal_pinTrace (s : State) : (s.illegal).pinTrace = s.pinTrace := rfl
@[simp] theorem illegal_latchLog (s : State) : (s.illegal).latchLog = s.latchLog := rfl

/-! `sensorTimeout` -/

@[simp] theorem sensorTimeout_cfg (stage : Stage) (i : Nat) (s : State) : (s.sensorTimeout stage i).cfg = s.cfg := rfl
@[simp] theorem sensorTimeout_cmdl (stage : Stage) (i : Nat) (s : State) : (s.sensorTimeout stage i).cmdl = s.cmdl := rfl
@[simp] theorem sensorTimeout_cmdh (stage : Stage) (i : Nat) (s : State) : (s.sensorTimeout stage i).cmdh = s.cmdh := rfl
@[simp] theorem sensorTimeout_ok (stage : Stage) (i : Nat) (s : State) : (s.sensorTimeout stage i).ok = s.ok := rfl
@[simp] theorem sensorTimeout_initd (stage : Stage) (i : Nat) (s : State) : (s.sensorTimeout stage i).initd = s.initd := rfl
@[simp] theorem sensorTimeout_ill (stage : Stage) (i : Nat) (s : State) : (s.sensorTimeout stage i).ill = s.ill := rfl
@[simp] theorem sensorTimeout_ovr (stage : Stage) (i : Nat) (s : State) : (s.sensorTimeout stage i).ovr = s.ovr := rfl
@[simp] theorem sensorTimeout_frame (stage : Stage) (i : Nat) (s : State) : (s.sensorTimeout stage i).frame = s.frame := rfl
@[simp] theorem sensorTimeout_sDir (stage : Stage) (i : Nat) (s : State) : (s.sensorTimeout stage i).sDir = s.sDir := rfl
@[simp] theorem sensorTimeout_sOut (stage : Stage) (i : Nat) (s : State) : (s.sensorTimeout stage i).sOut = s.sOut := rfl
@[simp] theorem sensorTimeout_dOe (stage : Stage) (i : Nat) (s : State) : (s.sensorTimeout stage i).dOe = s.dOe := rfl
@[simp] theorem sensorTimeout_dDb (stage : Stage) (i : Nat) (s : State) : (s.sensorTimeout stage i).dDb = s.dDb := rfl
@[simp] theorem sensorTimeout_dEn (stage : Stage) (i : Nat) (s : State) : (s.sensorTimeout stage i).dEn = s.dEn := rfl
@[simp] theorem sensorTimeout_dRs (stage : Stage) (i : Nat) (s : State) : (s.sensorTimeout stage i).dRs = s.dRs := rfl
@[simp] theorem sensorTimeout_seq (stage : Stage) (i : Nat) (s : State) : (s.sensorTimeout stage i).seq = .idle := rfl
@[simp] theorem sensorTimeout_ir (stage : Stage) (i : Nat) (s : State) : (s.sensorTimeout stage i).ir = s.ir := rfl
@[simp] theorem sensorTimeout_acc (stage : Stage) (i : Nat) (s : State) : (s.sensorTimeout stage i).acc = s.acc := rfl
@[simp] theorem sensorTimeout_bitI (stage : Stage) (i : Nat) (s : State) : (s.sensorTimeout stage i).bitI = s.bitI := rfl
@[simp] theorem sensorTimeout_wcnt (stage : Stage) (i : Nat) (s : State) : (s.sensorTimeout stage i).wcnt = s.wcnt := rfl
@[simp] theorem sensorTimeout_lastResult (stage : Stage) (i : Nat) (s : State) : (s.sensorTimeout stage i).lastResult = .timeout stage i := rfl
@[simp] theorem sensorTimeout_t (stage : Stage) (i : Nat) (s : State) : (s.sensorTimeout stage i).t = s.t := rfl
@[simp] theorem sensorTimeout_schedule (stage : Stage) (i : Nat) (s : State) : (s.sensorTimeout stage i).schedule = s.schedule := rfl
@[simp] theorem sensorTimeout_sensor (stage : Stage) (i : Nat) (s : State) : (s.sensorTimeout stage i).sensor = s.sensor := rfl
@[simp] theorem sensorTimeout_draws (stage : Stage) (i : Nat) (s : State) : (s.sensorTimeout stage i).draws = s.draws := rfl
@[simp] theorem sensorTimeout_accesses (stage : Stage) (i : Nat) (s : State) : (s.sensorTimeout stage i).accesses = s.accesses := rfl
@[simp] theorem sensorTimeout_pinTrace (stage : Stage) (i : Nat) (s : State) : (s.sensorTimeout stage i).pinTrace = s.pinTrace := rfl
@[simp] theorem sensorTimeout_latchLog (stage : Stage) (i : Nat) (s : State) : (s.sensorTimeout stage i).latchLog = s.latchLog := rfl

/-! `shiftBit` -/

@[simp] theorem shiftBit_cfg (i : Nat) (s : State) : (s.shiftBit i).cfg = s.cfg := rfl
@[simp] theorem shiftBit_cmdl (i : Nat) (s : State) : (s.shiftBit i).cmdl = s.cmdl := rfl
@[simp] theorem shiftBit_cmdh (i : Nat) (s : State) : (s.shiftBit i).cmdh = s.cmdh := rfl
@[simp] theorem shiftBit_ok (i : Nat) (s : State) : (s.shiftBit i).ok = s.ok := rfl
@[simp] theorem shiftBit_initd (i : Nat) (s : State) : (s.shiftBit i).initd = s.initd := rfl
@[simp] theorem shiftBit_ill (i : Nat) (s : State) : (s.shiftBit i).ill = s.ill := rfl
@[simp] theorem shiftBit_ovr (i : Nat) (s : State) : (s.shiftBit i).ovr = s.ovr := rfl
@[simp] theorem shiftBit_frame (i : Nat) (s : State) : (s.shiftBit i).frame = s.frame := rfl
@[simp] theorem shiftBit_sDir (i : Nat) (s : State) : (s.shiftBit i).sDir = s.sDir := rfl
@[simp] theorem shiftBit_sOut (i : Nat) (s : State) : (s.shiftBit i).sOut = s.sOut := rfl
@[simp] theorem shiftBit_dOe (i : Nat) (s : State) : (s.shiftBit i).dOe = s.dOe := rfl
@[simp] theorem shiftBit_dDb (i : Nat) (s : State) : (s.shiftBit i).dDb = s.dDb := rfl
@[simp] theorem shiftBit_dEn (i : Nat) (s : State) : (s.shiftBit i).dEn = s.dEn := rfl
@[simp] theorem shiftBit_dRs (i : Nat) (s : State) : (s.shiftBit i).dRs = s.dRs := rfl
@[simp] theorem shiftBit_seq (i : Nat) (s : State) : (s.shiftBit i).seq = s.seq := rfl
@[simp] theorem shiftBit_ir (i : Nat) (s : State) : (s.shiftBit i).ir = s.ir := rfl
@[simp] theorem shiftBit_acc (i : Nat) (s : State) : (s.shiftBit i).acc = shiftInto s.acc i (bitDecision s.cfg s.wcnt) := rfl
@[simp] theorem shiftBit_bitI (i : Nat) (s : State) : (s.shiftBit i).bitI = i + 1 := rfl
@[simp] theorem shiftBit_wcnt (i : Nat) (s : State) : (s.shiftBit i).wcnt = s.wcnt := rfl
@[simp] theorem shiftBit_lastResult (i : Nat) (s : State) : (s.shiftBit i).lastResult = s.lastResult := rfl
@[simp] theorem shiftBit_t (i : Nat) (s : State) : (s.shiftBit i).t = s.t := rfl
@[simp] theorem shiftBit_schedule (i : Nat) (s : State) : (s.shiftBit i).schedule = s.schedule := rfl
@[simp] theorem shiftBit_sensor (i : Nat) (s : State) : (s.shiftBit i).sensor = s.sensor := rfl
@[simp] theorem shiftBit_draws (i : Nat) (s : State) : (s.shiftBit i).draws = s.draws := rfl
@[simp] theorem shiftBit_accesses (i : Nat) (s : State) : (s.shiftBit i).accesses = s.accesses := rfl
@[simp] theorem shiftBit_pinTrace (i : Nat) (s : State) : (s.shiftBit i).pinTrace = s.pinTrace := rfl
@[simp] theorem shiftBit_latchLog (i : Nat) (s : State) : (s.shiftBit i).latchLog = s.latchLog := rfl

/-! `passTick` -/

@[simp] theorem passTick_cfg (s : State) : (s.passTick).cfg = s.cfg := rfl
@[simp] theorem passTick_cmdl (s : State) : (s.passTick).cmdl = s.cmdl := rfl
@[simp] theorem passTick_cmdh (s : State) : (s.passTick).cmdh = s.cmdh := rfl
@[simp] theorem passTick_ok (s : State) : (s.passTick).ok = s.ok := rfl
@[simp] theorem passTick_initd (s : State) : (s.passTick).initd = s.initd := rfl
@[simp] theorem passTick_ill (s : State) : (s.passTick).ill = s.ill := rfl
@[simp] theorem passTick_ovr (s : State) : (s.passTick).ovr = s.ovr := rfl
@[simp] theorem passTick_frame (s : State) : (s.passTick).frame = s.frame := rfl
@[simp] theorem passTick_sDir (s : State) : (s.passTick).sDir = s.sDir := rfl
@[simp] theorem passTick_sOut (s : State) : (s.passTick).sOut = s.sOut := rfl
@[simp] theorem passTick_dOe (s : State) : (s.passTick).dOe = s.dOe := rfl
@[simp] theorem passTick_dDb (s : State) : (s.passTick).dDb = s.dDb := rfl
@[simp] theorem passTick_dEn (s : State) : (s.passTick).dEn = s.dEn := rfl
@[simp] theorem passTick_dRs (s : State) : (s.passTick).dRs = s.dRs := rfl
@[simp] theorem passTick_seq (s : State) : (s.passTick).seq = s.seq := rfl
@[simp] theorem passTick_ir (s : State) : (s.passTick).ir = s.ir := rfl
@[simp] theorem passTick_acc (s : State) : (s.passTick).acc = s.acc := rfl
@[simp] theorem passTick_bitI (s : State) : (s.passTick).bitI = s.bitI := rfl
@[simp] theorem passTick_wcnt (s : State) : (s.passTick).wcnt = s.wcnt := rfl
@[simp] theorem passTick_lastResult (s : State) : (s.passTick).lastResult = s.lastResult := rfl
@[simp] theorem passTick_t (s : State) : (s.passTick).t = s.t + 1 := rfl
@[simp] theorem passTick_schedule (s : State) : (s.passTick).schedule = s.schedule := rfl
@[simp] theorem passTick_sensor (s : State) : (s.passTick).sensor = s.sensor.tail := rfl
@[simp] theorem passTick_draws (s : State) : (s.passTick).draws = s.draws + 1 := rfl
@[simp] theorem passTick_accesses (s : State) : (s.passTick).accesses = s.accesses := rfl
@[simp] theorem passTick_pinTrace (s : State) : (s.passTick).pinTrace = s.pinTrace ++ [⟨s.t + 1, s.sDir, s.sLine, s.bus⟩] := rfl
@[simp] theorem passTick_latchLog (s : State) : (s.passTick).latchLog = s.latchLog := rfl

/-! `logAccess` -/

@[simp] theorem logAccess_cfg (a : Access) (s : State) : (s.logAccess a).cfg = s.cfg := rfl
@[simp] theorem logAccess_cmdl (a : Access) (s : State) : (s.logAccess a).cmdl = s.cmdl := rfl
@[simp] theorem logAccess_cmdh (a : Access) (s : State) : (s.logAccess a).cmdh = s.cmdh := rfl
@[simp] theorem logAccess_ok (a : Access) (s : State) : (s.logAccess a).ok = s.ok := rfl
@[simp] theorem logAccess_initd (a : Access) (s : State) : (s.logAccess a).initd = s.initd := rfl
@[simp] theorem logAccess_ill (a : Access) (s : State) : (s.logAccess a).ill = s.ill := rfl
@[simp] theorem logAccess_ovr (a : Access) (s : State) : (s.logAccess a).ovr = s.ovr := rfl
@[simp] theorem logAccess_frame (a : Access) (s : State) : (s.logAccess a).frame = s.frame := rfl
@[simp] theorem logAccess_sDir (a : Access) (s : State) : (s.logAccess a).sDir = s.sDir := rfl
@[simp] theorem logAccess_sOut (a : Access) (s : State) : (s.logAccess a).sOut = s.sOut := rfl
@[simp] theorem logAccess_dOe (a : Access) (s : State) : (s.logAccess a).dOe = s.dOe := rfl
@[simp] theorem logAccess_dDb (a : Access) (s : State) : (s.logAccess a).dDb = s.dDb := rfl
@[simp] theorem logAccess_dEn (a : Access) (s : State) : (s.logAccess a).dEn = s.dEn := rfl
@[simp] theorem logAccess_dRs (a : Access) (s : State) : (s.logAccess a).dRs = s.dRs := rfl
@[simp] theorem logAccess_seq (a : Access) (s : State) : (s.logAccess a).seq = s.seq := rfl
@[simp] theorem logAccess_ir (a : Access) (s : State) : (s.logAccess a).ir = s.ir := rfl
@[simp] theorem logAccess_acc (a : Access) (s : State) : (s.logAccess a).acc = s.acc := rfl
@[simp] theorem logAccess_bitI (a : Access) (s : State) : (s.logAccess a).bitI = s.bitI := rfl
@[simp] theorem logAccess_wcnt (a : Access) (s : State) : (s.logAccess a).wcnt = s.wcnt := rfl
@[simp] theorem logAccess_lastResult (a : Access) (s : State) : (s.logAccess a).lastResult = s.lastResult := rfl
@[simp] theorem logAccess_t (a : Access) (s : State) : (s.logAccess a).t = s.t := rfl
@[simp] theorem logAccess_schedule (a : Access) (s : State) : (s.logAccess a).schedule = s.schedule := rfl
@[simp] theorem logAccess_sensor (a : Access) (s : State) : (s.logAccess a).sensor = s.sensor := rfl
@[simp] theorem logAccess_draws (a : Access) (s : State) : (s.logAccess a).draws = s.draws := rfl
@[simp] theorem logAccess_accesses (a : Access) (s : State) : (s.logAccess a).accesses = s.accesses ++ [a] := rfl
@[simp] theorem logAccess_pinTrace (a : Access) (s : State) : (s.logAccess a).pinTrace = s.pinTrace := rfl
@[simp] theorem logAccess_latchLog (a : Access) (s : State) : (s.logAccess a).latchLog = s.latchLog := rfl

/-! `emitLatch` -/

@[simp] theorem emitLatch_cfg (n : Nibble) (s : State) : (s.emitLatch n).cfg = s.cfg := rfl
@[simp] theorem emitLatch_cmdl (n : Nibble) (s : State) : (s.emitLatch n).cmdl = s.cmdl := rfl
@[simp] theorem emitLatch_cmdh (n : Nibble) (s : State) : (s.emitLatch n).cmdh = s.cmdh := rfl
@[simp] theorem emitLatch_ok (n : Nibble) (s : State) : (s.emitLatch n).ok = s.ok := rfl
@[simp] theorem emitLatch_initd (n : Nibble) (s : State) : (s.emitLatch n).initd = s.initd := rfl
@[simp] theorem emitLatch_ill (n : Nibble) (s : State) : (s.emitLatch n).ill = s.ill := rfl
@[simp] theorem emitLatch_ovr (n : Nibble) (s : State) : (s.emitLatch n).ovr = s.ovr := rfl
@[simp] theorem emitLatch_frame (n : Nibble) (s : State) : (s.emitLatch n).frame = s.frame := rfl
@[simp] theorem emitLatch_sDir (n : Nibble) (s : State) : (s.emitLatch n).sDir = s.sDir := rfl
@[simp] theorem emitLatch_sOut (n : Nibble) (s : State) : (s.emitLatch n).sOut = s.sOut := rfl
@[simp] theorem emitLatch_dOe (n : Nibble) (s : State) : (s.emitLatch n).dOe = s.dOe := rfl
@[simp] theorem emitLatch_dDb (n : Nibble) (s : State) : (s.emitLatch n).dDb = s.dDb := rfl
@[simp] theorem emitLatch_dEn (n : Nibble) (s : State) : (s.emitLatch n).dEn = s.dEn := rfl
@[simp] theorem emitLatch_dRs (n : Nibble) (s : State) : (s.emitLatch n).dRs = s.dRs := rfl
@[simp] theorem emitLatch_seq (n : Nibble) (s : State) : (s.emitLatch n).seq = s.seq := rfl
@[simp] theorem emitLatch_ir (n : Nibble) (s : State) : (s.emitLatch n).ir = s.ir := rfl
@[simp] theorem emitLatch_acc (n : Nibble) (s : State) : (s.emitLatch n).acc = s.acc := rfl
@[simp] theorem emitLatch_bitI (n : Nibble) (s : State) : (s.emitLatch n).bitI = s.bitI := rfl
@[simp] theorem emitLatch_wcnt (n : Nibble) (s : State) : (s.emitLatch n).wcnt = s.wcnt := rfl
@[simp] theorem emitLatch_lastResult (n : Nibble) (s : State) : (s.emitLatch n).lastResult = s.lastResult := rfl
@[simp] theorem emitLatch_t (n : Nibble) (s : State) : (s.emitLatch n).t = s.t := rfl
@[simp] theorem emitLatch_schedule (n : Nibble) (s : State) : (s.emitLatch n).schedule = s.schedule := rfl
@[simp] theorem emitLatch_sensor (n : Nibble) (s : State) : (s.emitLatch n).sensor = s.sensor := rfl
@[simp] theorem emitLatch_draws (n : Nibble) (s : State) : (s.emitLatch n).draws = s.draws := rfl
@[simp] theorem emitLatch_accesses (n : Nibble) (s : State) : (s.emitLatch n).accesses = s.accesses := rfl
@[simp] theorem emitLatch_pinTrace (n : Nibble) (s : State) : (s.emitLatch n).pinTrace = s.pinTrace := rfl
@[simp] theorem emitLatch_latchLog (n : Nibble) (s : State) : (s.emitLatch n).latchLog =
    s.latchLog ++ drivenOnly s.dOe [.latch (s.t + 1) s.dRs n] := rfl

/-! `validateFrame` -/

@[simp] theorem validateFrame_cfg (s : State) : (s.validateFrame).cfg = s.cfg := by
  unfold State.validateFrame; split <;> rfl
@[simp] theorem validateFrame_cmdl (s : State) : (s.validateFrame).cmdl = s.cmdl := by
  unfold State.validateFrame; split <;> rfl
@[simp] theorem validateFrame_cmdh (s : State) : (s.validateFrame).cmdh = s.cmdh := by
  unfold State.validateFrame; split <;> rfl
@[simp] theorem validateFrame_ok (s : State) : (s.validateFrame).ok = if checksumValid s.acc then true else s.ok := by
  unfold State.validateFrame; split <;> rfl
@[simp] theorem validateFrame_initd (s : State) : (s.validateFrame).initd = s.initd := by
  unfold State.validateFrame; split <;> rfl
@[simp] theorem validateFrame_ill (s : State) : (s.validateFrame).ill = s.ill := by
  unfold State.validateFrame; split <;> rfl
@[simp] theorem validateFrame_ovr (s : State) : (s.validateFrame).ovr = s.ovr := by
  unfold State.validateFrame; split <;> rfl
@[simp] theorem validateFrame_frame (s : State) : (s.validateFrame).frame = if checksumValid s.acc then s.acc else s.frame := by
  unfold State.validateFrame; split <;> rfl
@[simp] theorem validateFrame_sDir (s : State) : (s.validateFrame).sDir = s.sDir := by
  unfold State.validateFrame; split <;> rfl
@[simp] theorem validateFrame_sOut (s : State) : (s.validateFrame).sOut = s.sOut := by
  unfold State.validateFrame; split <;> rfl
@[simp] theorem validateFrame_dOe (s : State) : (s.validateFrame).dOe = s.dOe := by
  unfold State.validateFrame; split <;> rfl
@[simp] theorem validateFrame_dDb (s : State) : (s.validateFrame).dDb = s.dDb := by
  unfold State.validateFrame; split <;> rfl
@[simp] theorem validateFrame_dEn (s : State) : (s.validateFrame).dEn = s.dEn := by
  unfold State.validateFrame; split <;> rfl
@[simp] theorem validateFrame_dRs (s : State) : (s.validateFrame).dRs = s.dRs := by
  unfold State.validateFrame; split <;> rfl
@[simp] theorem validateFrame_seq (s : State) : (s.validateFrame).seq = s.seq := by
  unfold State.validateFrame; split <;> rfl
@[simp] theorem validateFrame_ir (s : State) : (s.validateFrame).ir = s.ir := by
  unfold State.validateFrame; split <;> rfl
@[simp] theorem validateFrame_acc (s : State) : (s.validateFrame).acc = s.acc := by
  unfold State.validateFrame; split <;> rfl
@[simp] theorem validateFrame_bitI (s : State) : (s.validateFrame).bitI = s.bitI := by
  unfold State.validateFrame; split <;> rfl
@[simp] theorem validateFrame_wcnt (s : State) : (s.validateFrame).wcnt = s.wcnt := by
  unfold State.validateFrame; split <;> rfl
@[simp] theorem validateFrame_lastResult (s : State) : (s.validateFrame).lastResult = if checksumValid s.acc then .okFrame else .checksumFail := by
  unfold State.validateFrame; split <;> rfl
@[simp] theorem validateFrame_t (s : State) : (s.validateFrame).t = s.t := by
  unfold State.validateFrame; split <;> rfl
@[simp] theorem validateFrame_schedule (s : State) : (s.validateFrame).schedule = s.schedule := by
  unfold State.validateFrame; split <;> rfl
@[simp] theorem validateFrame_sensor (s : State) : (s.validateFrame).sensor = s.sensor := by
  unfold State.validateFrame; split <;> rfl
@[simp] theorem validateFrame_draws (s : State) : (s.validateFrame).draws = s.draws := by
  unfold State.validateFrame; split <;> rfl
@[simp] theorem validateFrame_accesses (s : State) : (s.validateFrame).accesses = s.accesses := by
  unfold State.validateFrame; split <;> rfl
@[simp] theorem validateFrame_pinTrace (s : State) : (s.validateFrame).pinTrace = s.pinTrace := by
  unfold State.validateFrame; split <;> rfl
@[simp] theorem validateFrame_latchLog (s : State) : (s.validateFrame).latchLog = s.latchLog := by
  unfold State.validateFrame; split <;> rfl

end Sys2Proof.Machine
end

