-- ==== Sys2Proof/Laws/Ops.lean ====
section
/-! SUPPORT. What the shared operations can do: a statement of a procedure, the statements before a tick, a tick, presenting a
command, a window access and the reset. -/

namespace Sys2Proof.Machine

/-! What no statement of a procedure changes. -/

@[simp] theorem perform_cfg (st : Stmt) (s : State) : (perform st s).cfg = s.cfg := by cases st <;> simp [perform]
@[simp] theorem perform_cmdl (st : Stmt) (s : State) : (perform st s).cmdl = s.cmdl := by cases st <;> simp [perform]
@[simp] theorem perform_cmdh (st : Stmt) (s : State) : (perform st s).cmdh = s.cmdh := by cases st <;> simp [perform]
@[simp] theorem perform_ill (st : Stmt) (s : State) : (perform st s).ill = s.ill := by cases st <;> simp [perform]
@[simp] theorem perform_ovr (st : Stmt) (s : State) : (perform st s).ovr = s.ovr := by cases st <;> simp [perform]
@[simp] theorem perform_sOut (st : Stmt) (s : State) : (perform st s).sOut = s.sOut := by cases st <;> simp [perform]
@[simp] theorem perform_seq (st : Stmt) (s : State) : (perform st s).seq = s.seq := by cases st <;> simp [perform]
@[simp] theorem perform_ir (st : Stmt) (s : State) : (perform st s).ir = s.ir := by cases st <;> simp [perform]
@[simp] theorem perform_t (st : Stmt) (s : State) : (perform st s).t = s.t := by cases st <;> simp [perform]
@[simp] theorem perform_schedule (st : Stmt) (s : State) : (perform st s).schedule = s.schedule := by
  cases st <;> simp [perform]
@[simp] theorem perform_sensor (st : Stmt) (s : State) : (perform st s).sensor = s.sensor := by cases st <;> simp [perform]
@[simp] theorem perform_draws (st : Stmt) (s : State) : (perform st s).draws = s.draws := by cases st <;> simp [perform]
@[simp] theorem perform_accesses (st : Stmt) (s : State) : (perform st s).accesses = s.accesses := by
  cases st <;> simp [perform]
@[simp] theorem perform_pinTrace (st : Stmt) (s : State) : (perform st s).pinTrace = s.pinTrace := by
  cases st <;> simp [perform]

/-! The statements before the next tick. -/

@[simp] theorem runDue_nil (s : State) : runDue [] s = s := rfl
@[simp] theorem pending_nil : pending [] = [] := rfl

theorem runDue_cons_tick {st : Stmt} (h : st.takesTick = true) (rest : List Stmt) (s : State) :
    runDue (st :: rest) s = s := by simp [runDue, h]

theorem runDue_cons_due {st : Stmt} (h : st.takesTick = false) (rest : List Stmt) (s : State) :
    runDue (st :: rest) s = runDue rest (perform st s) := by simp [runDue, h]

theorem pending_cons_tick {st : Stmt} (h : st.takesTick = true) (rest : List Stmt) :
    pending (st :: rest) = st :: rest := by simp [pending, h]

theorem pending_cons_due {st : Stmt} (h : st.takesTick = false) (rest : List Stmt) :
    pending (st :: rest) = pending rest := by simp [pending, h]

/-- What no statement changes, the statements before a tick do not change. -/
theorem runDue_keeps {α : Type} {f : State → α} (h : ∀ st s, f (perform st s) = f s) (k : List Stmt) (s : State) :
    f (runDue k s) = f s := by
  induction k generalizing s with
  | nil => rfl
  | cons st k ih =>
    unfold runDue
    split
    · rfl
    · rw [ih, h]

@[simp] theorem runDue_cfg (k : List Stmt) (s : State) : (runDue k s).cfg = s.cfg := runDue_keeps perform_cfg k s
@[simp] theorem runDue_cmdl (k : List Stmt) (s : State) : (runDue k s).cmdl = s.cmdl := runDue_keeps perform_cmdl k s
@[simp] theorem runDue_cmdh (k : List Stmt) (s : State) : (runDue k s).cmdh = s.cmdh := runDue_keeps perform_cmdh k s
@[simp] theorem runDue_ill (k : List Stmt) (s : State) : (runDue k s).ill = s.ill := runDue_keeps perform_ill k s
@[simp] theorem runDue_ovr (k : List Stmt) (s : State) : (runDue k s).ovr = s.ovr := runDue_keeps perform_ovr k s
@[simp] theorem runDue_sOut (k : List Stmt) (s : State) : (runDue k s).sOut = s.sOut := runDue_keeps perform_sOut k s
@[simp] theorem runDue_seq (k : List Stmt) (s : State) : (runDue k s).seq = s.seq := runDue_keeps perform_seq k s
@[simp] theorem runDue_ir (k : List Stmt) (s : State) : (runDue k s).ir = s.ir := runDue_keeps perform_ir k s
@[simp] theorem runDue_t (k : List Stmt) (s : State) : (runDue k s).t = s.t := runDue_keeps perform_t k s
@[simp] theorem runDue_schedule (k : List Stmt) (s : State) : (runDue k s).schedule = s.schedule := runDue_keeps perform_schedule k s
@[simp] theorem runDue_sensor (k : List Stmt) (s : State) : (runDue k s).sensor = s.sensor := runDue_keeps perform_sensor k s
@[simp] theorem runDue_draws (k : List Stmt) (s : State) : (runDue k s).draws = s.draws := runDue_keeps perform_draws k s
@[simp] theorem runDue_accesses (k : List Stmt) (s : State) : (runDue k s).accesses = s.accesses := runDue_keeps perform_accesses k s
@[simp] theorem runDue_pinTrace (k : List Stmt) (s : State) : (runDue k s).pinTrace = s.pinTrace := runDue_keeps perform_pinTrace k s

/-- Statements do not look at SEQ. -/
theorem perform_withSeq (st : Stmt) (s : State) (q : Seq) : perform st { s with seq := q } = { perform st s with seq := q } := by
  cases st with
  | validate => simp only [perform, State.validateFrame]; split <;> rfl
  | _ => rfl

theorem runDue_withSeq (k : List Stmt) (s : State) (q : Seq) : runDue k { s with seq := q } = { runDue k s with seq := q } := by
  induction k generalizing s with
  | nil => rfl
  | cons st k ih =>
    unfold runDue
    split
    · rfl
    · rw [perform_withSeq, ih]

/-- What is pending begins with a statement that takes a tick. -/
theorem pending_head {k rest : List Stmt} {st : Stmt} (h : pending k = st :: rest) : st.takesTick = true := by
  induction k with
  | nil => simp at h
  | cons a k ih =>
    cases ha : a.takesTick with
    | true => rw [pending_cons_tick ha] at h; cases h; exact ha
    | false => rw [pending_cons_due ha] at h; exact ih h

/-- What is pending is a tail of the procedure, after statements that take no tick. -/
theorem pending_split (k : List Stmt) :
    ∃ due, k = due ++ pending k ∧ ∀ st ∈ due, Stmt.takesTick st = false := by
  induction k with
  | nil => exact ⟨[], rfl, by simp⟩
  | cons a k ih =>
    cases ha : a.takesTick with
    | true => exact ⟨[], by simp [pending_cons_tick ha], by simp⟩
    | false =>
      obtain ⟨due, hk, hd⟩ := ih
      refine ⟨a :: due, ?_, by simpa [ha] using hd⟩
      rw [pending_cons_due ha, List.cons_append, ← hk]

/-- Running what is due twice is running it once: nothing is due in front of what is pending. -/
theorem runDue_pending (k : List Stmt) (s : State) : runDue (pending k) s = s := by
  induction k with
  | nil => rfl
  | cons a k ih =>
    cases ha : a.takesTick with
    | true => rw [pending_cons_tick ha, runDue_cons_tick ha]
    | false => rw [pending_cons_due ha]; exact ih

@[simp] theorem pending_pending (k : List Stmt) : pending (pending k) = pending k := by
  induction k with
  | nil => rfl
  | cons a k ih =>
    cases ha : a.takesTick with
    | true => rw [pending_cons_tick ha, pending_cons_tick ha]
    | false => rw [pending_cons_due ha]; exact ih

/-! A tick. -/

theorem busy_iff (s : State) : s.busy = true ↔ s.seq ≠ .idle := by
  unfold State.busy; split <;> simp_all

theorem not_busy_iff (s : State) : s.busy = false ↔ s.seq = .idle := by
  unfold State.busy; split <;> simp_all

theorem tick_idle {s : State} (h : s.seq = .idle) : tick s = s.passTick := by simp [tick, h]

theorem tick_running {s : State} {op : Op} {rest : List Stmt} (h : s.seq = .running op rest) :
    tick s = endTick op (pending rest) (runDue rest s).sLine (runDue rest s).passTick := by simp [tick, h]

theorem settle_more {op : Op} {rest : List Stmt} (h : pending rest ≠ []) (s : State) :
    settle op rest s = { s with seq := .running op rest } := by simp [settle, h]

theorem settle_last {op : Op} {rest : List Stmt} (h : pending rest = []) (s : State) :
    settle op rest s = runDue rest { s with seq := .idle } := by simp [settle, h, runDue_withSeq]

/-- What follows a tick does not look at where SEQ stood. -/
theorem settle_congr {op : Op} {rest : List Stmt} {s s' : State}
    (h : ({ s with seq := .idle } : State) = { s' with seq := .idle }) : settle op rest s = settle op rest s' := by
  by_cases hp : pending rest = []
  · rw [settle_last hp, settle_last hp, h]
  · rw [settle_more hp, settle_more hp]
    exact congrArg (fun x : State => { x with seq := .running op rest }) h

/-- Everything the end of a tick can do to an operation whose procedure stood at `pending k`: count a wait down, succeed on a
sample, time out on the last allowed one, wait for the next one, or (with no tick left, which no legal state shows) end. -/
theorem endTick_cases (op : Op) (k : List Stmt) (level : Level) (s : State) :
    (∃ n rest, n ≠ 0 ∧ pending k = .repeatTick n :: rest ∧
      endTick op (pending k) level s = settle op (countDown n rest) s) ∨
    (∃ stage i rest, pending k = .sample level stage i :: rest ∧
      endTick op (pending k) level s = settle op rest { s with wcnt := s.wcnt + 1 }) ∨
    (∃ want stage i rest, pending k = .sample want stage i :: rest ∧ level ≠ want ∧ s.wcnt + 1 = s.cfg.waitCeil ∧
      endTick op (pending k) level s = { s with wcnt := s.wcnt + 1, lastResult := .timeout stage i, seq := .idle }) ∨
    (∃ want stage i rest, pending k = .sample want stage i :: rest ∧ level ≠ want ∧ s.wcnt + 1 ≠ s.cfg.waitCeil ∧
      endTick op (pending k) level s = { s with wcnt := s.wcnt + 1, seq := .running op (pending k) }) ∨
    (pending k = [] ∧ endTick op (pending k) level s = { s with seq := .idle }) := by
  cases hk : pending k with
  | nil => simp [endTick, settle]
  | cons st rest =>
    have ht := pending_head hk
    cases st with
    | repeatTick n => exact .inl ⟨n, rest, by simpa [Stmt.takesTick] using ht, rfl, rfl⟩
    | sample want stage i =>
      by_cases hl : level = want
      · subst hl
        exact .inr (.inl ⟨stage, i, rest, rfl, by simp [endTick, takeSample]⟩)
      · by_cases hc : s.wcnt + 1 = s.cfg.waitCeil
        · exact .inr (.inr (.inl ⟨want, stage, i, rest, rfl, hl, hc, by
            simp [endTick, takeSample, hl, hc, State.sensorTimeout]⟩))
        · exact .inr (.inr (.inr (.inl ⟨want, stage, i, rest, rfl, hl, hc, by simp [endTick, takeSample, hl, hc]⟩)))
    | _ => simp [Stmt.takesTick] at ht

@[simp] theorem ticks_zero (s : State) : ticks 0 s = s := rfl
theorem ticks_succ (n : Nat) (s : State) : ticks (n + 1) s = ticks n (tick s) := rfl

theorem ticks_add (m n : Nat) (s : State) : ticks (m + n) s = ticks n (ticks m s) := by
  induction m generalizing s with
  | zero => simp
  | succ m ih => rw [Nat.succ_add, ticks_succ, ticks_succ, ih]

/-- The ticks of one `repeat n: tick()`: the statements due run first, then only time passes, and after the last of them the
operation goes on with `rest` or ends. -/
theorem ticks_repeat {s : State} {op : Op} {k rest : List Stmt} {n : Nat} (hs : s.seq = .running op k)
    (hk : pending k = .repeatTick n :: rest) (hn : 1 ≤ n) :
    (∀ j, j < n → (ticks j s).busy = true) ∧
    ∃ trace, ticks n s = settle op rest { runDue k s with
      t := s.t + n, sensor := s.sensor.drop n, draws := s.draws + n, pinTrace := trace } := by
  induction n generalizing s k with
  | zero => omega
  | succ n ih =>
    have ht : tick s = settle op (countDown (n + 1) rest) (runDue k s).passTick := by
      rw [tick_running hs, hk]; rfl
    have hb : s.busy = true := by simp [busy_iff, hs]
    rcases Nat.eq_zero_or_pos n with rfl | hn'
    · refine ⟨fun j hj => ?_, (runDue k s).passTick.pinTrace, ?_⟩
      · obtain rfl : j = 0 := by omega
        exact hb
      · rw [ticks_succ, ticks_zero, ht]
        simp [countDown, State.passTick]
    · have hc : countDown (n + 1) rest = .repeatTick n :: rest := by simp [countDown]; omega
      have hd : Stmt.takesTick (.repeatTick n) = true := by simp [Stmt.takesTick]; omega
      have hp : pending (.repeatTick n :: rest) = .repeatTick n :: rest := pending_cons_tick hd rest
      have ht' : tick s = { (runDue k s).passTick with seq := .running op (.repeatTick n :: rest) } := by
        rw [ht, hc, settle_more (by simp [hp])]
      obtain ⟨hbusy, trace, he⟩ := ih (s := tick s) (k := .repeatTick n :: rest) (by rw [ht']) hp hn'
      refine ⟨fun j hj => ?_, trace, ?_⟩
      · cases j with
        | zero => exact hb
        | succ j => exact hbusy j (by omega)
      · rw [ticks_succ, he, runDue_cons_tick hd, ht']
        refine settle_congr ?_
        simp [State.passTick, Nat.add_comm, Nat.add_left_comm]

/-! Presenting, window accesses, reset. -/

/-- Presenting a command either sets OVR or is the acceptance; nothing else happens. -/
theorem issue_cases (op : Op) (w : Word) (proc : List Stmt) (s : State) :
    (s.busy = true ∧ issue op w proc s = .next s.overrun) ∨
    (s.busy = false ∧ issue op w proc s = .next (s.accept op w proc)) := by
  unfold issue; cases s.busy <;> simp

theorem windowOffset_eq {c : Config} {off : Nat} (h : off < 16) : windowOffset c (c.baseAddr + off) = some off := by
  unfold windowOffset; rw [if_pos (by omega)]; simp

theorem windowOffset_none {c : Config} {addr : Nat} (h : addr < c.baseAddr ∨ c.baseAddr + 16 ≤ addr) :
    windowOffset c addr = none := by
  unfold windowOffset; rw [if_neg (by omega)]

theorem windowOffset_some {c : Config} {addr off : Nat} (h : windowOffset c addr = some off) :
    off < 16 ∧ addr = c.baseAddr + off := by
  unfold windowOffset at h
  split at h
  · cases h; omega
  · cases h

end Sys2Proof.Machine
end

