-- ==== Sys2Proof/Laws/PerInstr.lean ====
section
/-! SUPPORT. Claims for all commands, one lemma per constructor. -/

namespace Sys2Proof.Laws.EncodeMatches

/-- The word of a well-formed command is selected by exactly the row of the opcode map of its operation (30_encoding R47). -/
def Statement (i : Instr) : Prop :=
  i.wellFormed = true → ∀ r ∈ opcodeTable, r.selects (encode i) = decide (r.op = i.op)

theorem sread : Statement .sread := by intro _; decide

theorem dinit : Statement .dinit := by intro _; decide

theorem dcmd (b : Byte) : Statement (.dcmd b) := by
  intro _; revert b; decide

theorem ddata (b : Byte) : Statement (.ddata b) := by
  intro _; revert b; decide

theorem dclear : Statement .dclear := by intro _; decide

theorem dsetcur (col row : Nat) : Statement (.dsetcur col row) := by
  intro h
  simp only [Instr.wellFormed, Bool.and_eq_true, decide_eq_true_eq] at h
  have all : ∀ c r : Fin 16, ∀ x ∈ opcodeTable, x.selects (encode (.dsetcur c r)) = decide (x.op = .dsetcur) := by decide
  exact all ⟨col, h.1⟩ ⟨row, h.2⟩

theorem dclrrow (row : Nat) : Statement (.dclrrow row) := by
  intro h
  simp only [Instr.wellFormed, decide_eq_true_eq] at h
  have all : ∀ r : Fin 16, ∀ x ∈ opcodeTable, x.selects (encode (.dclrrow r)) = decide (x.op = .dclrrow) := by decide
  exact all ⟨row, h⟩

end Sys2Proof.Laws.EncodeMatches
end

