-- ==== Sys2Proof/Laws/Procedures.lean ====
section
/-! SUPPORT. What the micro-operations and the procedures do before their first tick, and the points of a procedure. -/

namespace Sys2Proof.Machine

theorem writeNibble_pending {c : Config} (hv : c.Valid) (n : Nibble) (r : List Stmt) :
    pending (writeNibble c n ++ r) = .repeatTick c.enSetupTicks :: .setEn true :: .repeatTick c.enHighTicks ::
      .setEn false :: .emitLatch n :: .repeatTick c.enSettleTicks :: r := by
  have : c.enSetupTicks ≠ 0 := by have := hv.2.2.2.1; omega
  simp [writeNibble, pending, Stmt.takesTick, this]

theorem writeNibble_runDue {c : Config} (hv : c.Valid) (n : Nibble) (r : List Stmt) (s : State) :
    runDue (writeNibble c n ++ r) s = { s with dDb := n, dEn := false } := by
  have : c.enSetupTicks ≠ 0 := by have := hv.2.2.2.1; omega
  simp [writeNibble, runDue, Stmt.takesTick, this, perform]

theorem writeByte_pending {c : Config} (rs : Level) (b : Byte) (r : List Stmt) :
    pending (writeByte c rs b ++ r) = pending (writeNibble c (highNibble b) ++ (writeNibble c (lowNibble b) ++ r)) := by
  simp only [writeByte, List.cons_append, List.append_assoc]
  rw [pending_cons_due rfl]

theorem writeByte_pending_ne {c : Config} (hv : c.Valid) (rs : Level) (b : Byte) (r : List Stmt) :
    pending (writeByte c rs b ++ r) ≠ [] := by
  rw [writeByte_pending, writeNibble_pending hv]; simp

theorem writeByte_runDue {c : Config} (hv : c.Valid) (rs : Level) (b : Byte) (r : List Stmt) (s : State) :
    runDue (writeByte c rs b ++ r) s = { s with dRs := rs, dDb := highNibble b, dEn := false } := by
  simp only [writeByte, List.cons_append, List.append_assoc]
  rw [runDue_cons_due rfl, writeNibble_runDue hv]; rfl

theorem sreadProc_pending_ne {c : Config} (hv : c.Valid) : pending (sreadProc c) ≠ [] := by
  have : c.startTicks ≠ 0 := by have := hv.1; omega
  simp [sreadProc, pending, Stmt.takesTick, this]

/-- Under a valid configuration the frame has 40 bits (R9, log 24), as the pseudocode of 40_sensorlink R64 writes it. -/
theorem sreadProc_eq {c : Config} (hv : c.Valid) :
    sreadProc c = .clearOk :: .clearResult :: .clearAcc :: .setSDir true :: .repeatTick c.startTicks :: .setSDir false ::
      (waitLevel false .ackLow 0 ++ waitLevel true .ackHigh 0 ++ waitLevel false .ackEnd 0 ++ readBits 40 0 ++ [.validate]) := by
  have h : c.frameBits = 40 := hv.2.2.2.2.2.2.2.2.2.2
  simp [sreadProc, h]

theorem sreadProc_runDue {c : Config} (hv : c.Valid) (s : State) :
    runDue (sreadProc c) s =
      { s with ok := false, lastResult := .none, acc := Vector.replicate 5 0x00, bitI := 0, sDir := true } := by
  have : c.startTicks ≠ 0 := by have := hv.1; omega
  simp [sreadProc, runDue, Stmt.takesTick, this, perform]

theorem dinitProc_pending_ne {c : Config} (hv : c.Valid) : pending (dinitProc c) ≠ [] := by
  simp only [dinitProc, List.cons_append, List.append_assoc, List.nil_append]
  by_cases h : c.initWait0Ticks = 0
  · simp [pending, Stmt.takesTick, h]
    rw [writeNibble_pending hv]; simp
  · simp [pending, Stmt.takesTick, h]

theorem dinitProc_runDue {c : Config} (hv : c.Valid) (s : State) :
    runDue (dinitProc c) s = { s with
      initd := false, dOe := true, dRs := false
      dDb := if c.initWait0Ticks = 0 then c.funcsetNibble else s.dDb
      dEn := if c.initWait0Ticks = 0 then false else s.dEn } := by
  simp only [dinitProc, List.cons_append, List.append_assoc, List.nil_append]
  by_cases h : c.initWait0Ticks = 0
  · simp [runDue, Stmt.takesTick, h]
    rw [writeNibble_runDue hv]; simp [perform]
  · simp [runDue, Stmt.takesTick, h, perform]

/-- Under a valid configuration every procedure has a tick (10_state R20). -/
theorem procedureOf_pending_ne {c : Config} (hv : c.Valid) (i : Instr) : pending (procedureOf c i) ≠ [] := by
  cases i with
  | sread => exact sreadProc_pending_ne hv
  | dinit => exact dinitProc_pending_ne hv
  | dclear => exact writeByte_pending_ne hv _ _ _
  | dclrrow row =>
    simp only [procedureOf, clrrowProc, List.append_assoc]
    exact writeByte_pending_ne hv _ _ _
  | dcmd b => simpa [procedureOf] using writeByte_pending_ne hv false b []
  | ddata b => simpa [procedureOf] using writeByte_pending_ne hv true b []
  | dsetcur col row => simpa [procedureOf] using writeByte_pending_ne hv false (positionByte c col row) []

/-! Statements look neither at IR nor at the pin trace. -/

theorem runDue_withIr (k : List Stmt) (s : State) (w : Word) : runDue k { s with ir := w } = { runDue k s with ir := w } := by
  induction k generalizing s with
  | nil => rfl
  | cons st k ih =>
    unfold runDue
    split
    · rfl
    · rw [← ih]
      congr 1
      cases st with
      | validate => simp only [perform, State.validateFrame]; split <;> rfl
      | _ => rfl

theorem runDue_withPinTrace (k : List Stmt) (s : State) (p : List PinSample) :
    runDue k { s with pinTrace := p } = { runDue k s with pinTrace := p } := by
  induction k generalizing s with
  | nil => rfl
  | cons st k ih =>
    unfold runDue
    split
    · rfl
    · rw [← ih]
      congr 1
      cases st with
      | validate => simp only [perform, State.validateFrame]; split <;> rfl
      | _ => rfl

theorem settle_withPinTrace (op : Op) (k : List Stmt) (s : State) (p : List PinSample) :
    settle op k { s with pinTrace := p } = { settle op k s with pinTrace := p } := by
  by_cases h : pending k = []
  · simp only [settle, h, if_true, runDue_withPinTrace]
  · simp only [settle, h, if_false]

/-- Accepting a procedure that has a tick. -/
theorem accept_eq {op : Op} {w : Word} {proc : List Stmt} {s : State} (h : pending proc ≠ []) :
    s.accept op w proc = { runDue proc s with ir := w, seq := .running op (pending proc) } := by
  simp [State.accept, h, runDue_withIr]

/-! Points of a procedure. -/

theorem PointOf.self (p : List Stmt) : PointOf p p := ⟨[], p, rfl, .inl rfl⟩

theorem PointOf.tail {p rest : List Stmt} {st : Stmt} (h : PointOf p (st :: rest)) : PointOf p rest := by
  obtain ⟨b, a, rfl, hr⟩ := h
  rcases hr with rfl | ⟨n, m, tail, rfl, _, h⟩
  · exact ⟨b ++ [st], rest, by simp, .inl rfl⟩
  · cases h; exact ⟨b ++ [.repeatTick n], rest, by simp, .inl rfl⟩

theorem PointOf.pending {p rest : List Stmt} (h : PointOf p rest) : PointOf p (pending rest) := by
  induction rest with
  | nil => exact h
  | cons st rest ih =>
    cases ht : st.takesTick with
    | true => rw [pending_cons_tick ht]; exact h
    | false => rw [pending_cons_due ht]; exact ih h.tail

theorem PointOf.countDown {p rest : List Stmt} {n : Nat} (h : PointOf p (.repeatTick n :: rest)) :
    PointOf p (countDown n rest) := by
  unfold Machine.countDown
  split
  · exact h.tail
  · obtain ⟨b, a, rfl, hr⟩ := h
    rcases hr with rfl | ⟨n', m, tail, rfl, hm, h⟩
    · exact ⟨b, _, rfl, .inr ⟨n, n - 1, rest, rfl, by omega, rfl⟩⟩
    · cases h; exact ⟨b, _, rfl, .inr ⟨n', n - 1, rest, rfl, by omega, rfl⟩⟩

/-! The latch events of a pin trace. -/

theorem latchEvents_append (xs : List PinSample) (q : PinSample) :
    latchEvents (xs ++ [q]) = latchEvents xs ++ (match xs.getLast? with | none => [] | some p => latchBetween p q) := by
  induction xs with
  | nil => rfl
  | cons a xs ih =>
    cases xs with
    | nil => simp [latchEvents]
    | cons b xs =>
      simp only [List.cons_append, latchEvents] at ih ⊢
      rw [ih]; simp [List.getLast?_cons_cons]

end Sys2Proof.Machine
end

