-- ==== Sys2Proof/Laws/Step.lean ====
section
/-! SUPPORT. What a step can do, said once: every claim about steps cites `step_cases`. -/

namespace Sys2Proof.Machine

/-- The meaning of every command is to present it with its word and its procedure. -/
theorem exec_eq_issue (i : Instr) (s : State) :
    exec i s = issue i.op (encode i) (procedureOf s.cfg i) s := by
  cases i <;> rfl

theorem exec_busy {s : State} (h : s.busy = true) (i : Instr) : exec i s = .next s.overrun := by
  rw [exec_eq_issue]; simp [issue, h]

theorem exec_idle {s : State} (h : s.busy = false) (i : Instr) :
    exec i s = .next (s.accept i.op (encode i) (procedureOf s.cfg i)) := by
  rw [exec_eq_issue]; simp [issue, h]

/-- BUSY looks at SEQ only. -/
theorem busy_congr {s s' : State} (h : s.seq = s'.seq) : s.busy = s'.busy := by
  unfold State.busy; rw [h]

/-- Everything a CMDH write can do (30_encoding R49). -/
theorem present_cases (v : Byte) (s : State) :
    (s.busy = true ∧ present v s = .next { s with cmdh := v, ovr := true }) ∨
    (s.busy = false ∧ ∃ why, decode (wordOf v s.cmdl) = .illegal why ∧
      present v s = .next { s with cmdh := v, ill := true }) ∨
    (s.busy = false ∧ ∃ i, decode (wordOf v s.cmdl) = .instr i ∧
      present v s = .next (State.accept i.op (encode i) (procedureOf s.cfg i) { s with cmdh := v })) := by
  have hb : State.busy { s with cmdh := v } = s.busy := busy_congr rfl
  cases h : s.busy with
  | true => exact .inl ⟨rfl, by simp only [present]; rw [if_pos (hb.trans h)]; rfl⟩
  | false =>
    refine .inr ?_
    simp only [present, decodeBytes]
    rw [if_neg (by rw [hb, h]; decide)]
    cases hd : decode (wordOf v s.cmdl) with
    | illegal why => exact .inl ⟨trivial, why, rfl, rfl⟩
    | instr i => exact .inr ⟨trivial, i, rfl, exec_idle (hb.trans h) i⟩

/-- A poll of a busy block: the read of STATUS, a tick and another poll. -/
theorem pollStatus_busy {s : State} (h : s.busy = true) :
    pollStatus s = { readReg (s.cfg.baseAddr + 2) .status s with schedule := .tick :: .waitIdle :: s.schedule } := if_pos h

/-- A poll of an idle block: the read of STATUS. -/
theorem pollStatus_idle {s : State} (h : s.busy = false) : pollStatus s = readReg (s.cfg.baseAddr + 2) .status s :=
  if_neg (by simp [h])

/-- A step that answers a next state had a valid configuration and did one of these. -/
theorem step_cases {s u : State} (h : step s = .next u) :
    s.cfg.Valid ∧
    ((∃ es, (s.schedule = [] ∧ es = [] ∨ s.schedule = .tick :: es) ∧ u = tick { s with schedule := es }) ∨
     (∃ off es, off < 16 ∧ s.schedule = .read (s.cfg.baseAddr + off) 1 :: es ∧
        u = readReg (s.cfg.baseAddr + off) (regAt off) { s with schedule := es }) ∨
     (∃ off v es, off < 16 ∧ s.schedule = .write (s.cfg.baseAddr + off) 1 v :: es ∧
        writeReg (regAt off) v
          { s with schedule := es, accesses := s.accesses ++ [.write (s.cfg.baseAddr + off) v] } = .next u) ∨
     (∃ es, s.schedule = .waitIdle :: es ∧ u = pollStatus { s with schedule := es }) ∨
     (∃ es, s.schedule = .reset :: es ∧ u = resetNow { s with schedule := es })) := by
  unfold step at h
  split at h
  · rename_i hv
    refine ⟨hv, ?_⟩
    cases hs : s.schedule with
    | nil =>
      rw [hs] at h; cases h
      refine .inl ⟨[], .inl ⟨rfl, rfl⟩, ?_⟩
      rw [← hs]
    | cons e es =>
      rw [hs] at h
      cases e with
      | tick => cases h; exact .inl ⟨es, .inr rfl, rfl⟩
      | read addr n =>
        simp only [react, hostRead] at h
        cases hw : windowOffset s.cfg addr with
        | none => rw [hw] at h; cases h
        | some off =>
          rw [hw] at h
          obtain ⟨ho, rfl⟩ := windowOffset_some hw
          by_cases hn : n = 1
          · subst hn; cases h; exact .inr (.inl ⟨off, es, ho, rfl, rfl⟩)
          · simp only [hn, if_false] at h; cases h
      | write addr n v =>
        simp only [react, hostWrite] at h
        cases hw : windowOffset s.cfg addr with
        | none => rw [hw] at h; cases h
        | some off =>
          rw [hw] at h
          obtain ⟨ho, rfl⟩ := windowOffset_some hw
          by_cases hn : n = 1
          · subst hn; exact .inr (.inr (.inl ⟨off, v, es, ho, rfl, h⟩))
          · simp only [hn, if_false] at h; cases h
      | waitIdle => cases h; exact .inr (.inr (.inr (.inl ⟨es, rfl, rfl⟩)))
      | reset => cases h; exact .inr (.inr (.inr (.inr ⟨es, rfl, rfl⟩)))
  · cases h

end Sys2Proof.Machine
end

