-- ==== Sys2Proof/Tests/Slice0.lean ====
section
/-! SUPPORT. Tests on fixed values taken from the spec (the words of 30_encoding R47 and R48, the examples of 40_sensorlink and
41_displaylink), and a witness for every statement that has hypotheses. -/

namespace Sys2Proof.Tests

open Sys2Proof Sys2Proof.Machine

/-! ### Well-formedness (30_encoding R50): an ill-formed term for each check -/

theorem test_wellFormed_column_range : (Instr.dsetcur 16 0).wellFormed = false := by decide
theorem test_wellFormed_cursor_row_range : (Instr.dsetcur 0 16).wellFormed = false := by decide
theorem test_wellFormed_row_range : (Instr.dclrrow 16).wellFormed = false := by decide
theorem test_wellFormed_edges : ((Instr.dsetcur 15 15).wellFormed && (Instr.dclrrow 15).wellFormed) = true := by decide

/-! ### Decoding: words written out from R45 and R47 as OP, A, IMM -/

theorem test_decode_sread : decode (0b0001#4 ++ (0b0000#4 ++ 0b00000000#8)) = .instr .sread := by decide
theorem test_decode_dinit : decode (0b0010#4 ++ (0b0000#4 ++ 0b00000000#8)) = .instr .dinit := by decide
theorem test_decode_dcmd : decode (0b0011#4 ++ (0b0000#4 ++ 0b00101000#8)) = .instr (.dcmd 0x28) := by decide
theorem test_decode_ddata : decode (0b0100#4 ++ (0b0000#4 ++ 0b01000001#8)) = .instr (.ddata 0x41) := by decide
theorem test_decode_dclear : decode (0b0101#4 ++ (0b0000#4 ++ 0b00000000#8)) = .instr .dclear := by decide
theorem test_decode_dsetcur : decode (0b0110#4 ++ (0b0001#4 ++ 0b00000101#8)) = .instr (.dsetcur 5 1) := by decide
theorem test_decode_dclrrow : decode (0b0111#4 ++ (0b0011#4 ++ 0b00000000#8)) = .instr (.dclrrow 3) := by decide

/-- One illegal word of each clause of R48. -/
theorem test_decode_illegal :
    decode 0x0000 = .illegal .opZero ∧ decode 0x8000 = .illegal .opReserved ∧ decode 0xFFFF = .illegal .opReserved ∧
    decode 0x3100 = .illegal .aNotZero ∧ decode 0x1001 = .illegal .immNotZero ∧ decode 0x7001 = .illegal .immNotZero ∧
    decode 0x6010 = .illegal .immHighNotZero := by decide

theorem test_table_word_dsetcur : decodeTableWord 16 0x6105 = some (.dsetcur 5 1) := by decide
theorem test_table_word_illegal : decodeTableWord 16 0x0000 = none := by decide

/-! ### One step -/

/-- The state a step answers, if it answers one. -/
def nextOf (o : Host.Outcome State Fault Refusal) : Option State :=
  match o with
  | .next s => some s
  | .fault _ => none
  | .refused _ => none

/-- The step that presents `w` right after reset. -/
def first (w : Nat) : Option State := nextOf (step (State.reset.withFetchWord 16 w))

/-- The reset block with a procedure's point in SEQ. -/
def running (op : Op) (ir : Word) (rest : List Stmt) : State := { State.reset with seq := .running op rest, ir := ir }

/-- SREAD at acceptance (R64): the line is driven, 18000 ticks to come. -/
theorem test_first_sread : (first 0x1000).map (fun s => (s.ir, s.busy, s.sDir, s.ok)) = some (0x1000, true, true, false) := by
  decide

/-- The end of an SREAD whose frame is [200,100,50,10,104]: 360 mod 256 = 104, valid (R64, corner case 6). -/
theorem test_sread_end :
    let s := tick { running .sread 0x1000 [.sample false .bitHigh 39, .shiftBit 39, .validate] with
      acc := #v[200, 100, 50, 10, 52], wcnt := 39, sensor := [false] }
    (s.busy, s.ok, s.frame, s.lastResult) = (false, true, #v[200, 100, 50, 10, 104], .okFrame) := by decide

/-- DINIT at acceptance (R73): the bus is driven with RS low and the first function-set nibble. -/
theorem test_first_dinit : (first 0x2000).map (fun s => (s.busy, s.bus)) = some (true, some ⟨0x3, false, false⟩) := by decide

/-- The end of a DINIT: STATUS = 0x04 (R73, example). -/
theorem test_dinit_end :
    (tick { running .dinit 0x2000 [.repeatTick 1, .setInitd true] with dOe := true }).status = 0x04 := by decide

/-- DCMD 0x28 (R74, example): the high nibble 0x2 first, RS low. -/
theorem test_first_dcmd : (first 0x3028).map (fun s => (s.ir, s.busy, s.dDb, s.dRs)) = some (0x3028, true, 0x2, false) := by
  decide

/-- EN falls at the start of the first settle tick, with one latch event stamped with it (R70). -/
theorem test_dcmd_latch :
    let s := tick { running .dcmd 0x3028 [.setEn false, .emitLatch 0x2, .repeatTick 100] with
      dOe := true, dEn := true, dDb := 0x2, t := 2 }
    (s.dEn, s.latchLog) = (false, [.latch 3 false 0x2]) := by decide

/-- DDATA 'A' (R75, example): the high nibble 0x4 first, RS high. -/
theorem test_first_ddata : (first 0x4041).map (fun s => (s.ir, s.busy, s.dDb, s.dRs)) = some (0x4041, true, 0x4, true) := by
  decide

/-- No latch event is made while the bus is not driven (41_displaylink R69). -/
theorem test_ddata_undriven :
    (tick { running .ddata 0x4041 [.setEn false, .emitLatch 0x4, .repeatTick 100] with dEn := true }).latchLog = [] := by
  decide

/-- DCLEAR (R76): its first nibble is 0, RS low. -/
theorem test_first_dclear : (first 0x5000).map (fun s => (s.ir, s.busy, s.dDb, s.dRs)) = some (0x5000, true, 0x0, false) := by
  decide

/-- BUSY falls with the last tick of the clear wait (R76). -/
theorem test_dclear_end :
    (tick (running .dclear 0x5000 [.repeatTick 2])).busy = true ∧ (tick (running .dclear 0x5000 [.repeatTick 1])).busy = false := by
  decide

/-- DSETCUR 5, 1 sends 0xC5, DSETCUR 3, 7 sends 0xC3, DSETCUR 15, 0 sends 0x8F (R77). -/
theorem test_dsetcur_byte :
    positionByte Config.reference 5 1 = 0xC5 ∧ positionByte Config.reference 3 7 = 0xC3 ∧
    positionByte Config.reference 15 0 = 0x8F := by decide

theorem test_first_dsetcur : (first 0x6703).map (fun s => (s.ir, s.busy, s.dDb, s.dRs)) = some (0x6703, true, 0xC, false) := by
  decide

/-- DCLRROW 1 (R78): 0xC0 first. -/
theorem test_first_dclrrow : (first 0x7100).map (fun s => (s.ir, s.busy, s.dDb, s.dRs)) = some (0x7100, true, 0xC, false) := by
  decide

/-- An illegal word sets ILL (R48, R49); its busy twin sets OVR only (R49: "The busy test comes first"). -/
theorem test_first_illegal :
    (first 0x0000).map (fun s => (s.status, s.seq)) = some (0x08, .idle) ∧
    (nextOf (present 0x00 (running .dclear 0x5000 [.repeatTick 2]))).map (fun s => s.status) = some 0x11 := by decide

/-- A wait times out on its 200th sample (R56, R58). -/
theorem test_wait_ceiling :
    let s := tick { running .sread 0x1000 [.sample false .ackLow 0] with wcnt := 199, sensor := [true] }
    (s.busy, s.wcnt, s.lastResult) = (false, 200, .timeout .ackLow 0) := by decide

/-- A record with a frame of another size is refused (log 24). -/
theorem test_frame_size_refused :
    (match step (State.resetWith { Config.reference with frameBits := 48 }) with
      | .refused r => some r
      | .next _ => none
      | .fault _ => none) = some .badConfig := by decide

/-! ### Witnesses -/

/-- The reset block with a schedule. -/
def waiting (es : List Event) : State := { State.reset with schedule := es }

/-- A block busy with the clear wait of a DCLEAR on a driven bus, with a schedule. -/
def clearing (es : List Event) : State :=
  { running .dclear 0x5000 [.repeatTick 5] with dOe := true, schedule := es }

theorem reset_valid : State.reset.cfg.Valid ∧ State.reset.busy = false := by decide

theorem reset_legal : State.reset.Legal := by
  refine ⟨by decide, trivial, ?_, by decide, by decide, by simp [State.reset, State.resetWith], by decide, by decide⟩
  constructor <;> simp [State.reset, State.resetWith, Config.reference]

theorem witness_EncodeDecodeRoundTrip : decode 0x6F0F = .instr (.dsetcur 15 15) := by decide
theorem witness_DecodeEncodeRoundTrip :
    (Instr.dsetcur 15 15).wellFormed = true ∧ (Instr.dclrrow 15).wellFormed = true ∧ (Instr.dcmd 0xFF).wellFormed = true := by
  decide
theorem witness_IllegalWordsExactly :
    (waiting [.write 1 1 0xFF]).NextWrite 1 0xFF [] ∧ (waiting [.write 1 1 0xFF]).busy = false ∧
    decode (wordOf 0xFF (waiting [.write 1 1 0xFF]).cmdl) = .illegal .opReserved :=
  ⟨⟨by decide, by decide, rfl⟩, by decide, by decide⟩
theorem witness_OperandsAreFields :
    decode 0x30FF = .instr (.dcmd 0xFF) ∧ decode 0x40FF = .instr (.ddata 0xFF) ∧ decode 0x6F0F = .instr (.dsetcur 15 15) ∧
    decode 0x7F00 = .instr (.dclrrow 15) := by decide
theorem witness_AssemblerEmitsWords :
    (∀ c ∈ ['a', '~'], 1 ≤ c.toNat ∧ c.toNat < 128) ∧
    ([Char.ofNat 0, 'b'] = [] ∨ ∃ rest, [Char.ofNat 0, 'b'] = Char.ofNat 0 :: rest) :=
  ⟨by simp, .inr ⟨_, rfl⟩⟩

theorem witness_StepRunsDecodedCommand :
    (waiting [.write 1 1 0x10]).NextWrite 1 0x10 [] ∧ (waiting [.write 1 1 0x10]).busy = false ∧
    decode (wordOf 0x10 (waiting [.write 1 1 0x10]).cmdl) = .instr .sread :=
  ⟨⟨by decide, by decide, rfl⟩, by decide, by decide⟩

/-- The three branches of R49: busy, illegal, accepted. -/
theorem witness_PresentingACommand :
    ((clearing [.write 1 1 0x10]).NextWrite 1 0x10 [] ∧ (clearing [.write 1 1 0x10]).busy = true) ∧
    ((waiting [.write 1 1 0x00]).NextWrite 1 0x00 [] ∧ (waiting [.write 1 1 0x00]).busy = false ∧
      decode (wordOf 0x00 (waiting [.write 1 1 0x00]).cmdl) = .illegal .opZero) ∧
    ((waiting [.write 1 1 0x7F]).NextWrite 1 0x7F [] ∧ (waiting [.write 1 1 0x7F]).busy = false ∧
      decode (wordOf 0x7F (waiting [.write 1 1 0x7F]).cmdl) = .instr (.dclrrow 15)) :=
  ⟨⟨⟨by decide, by decide, rfl⟩, by decide⟩, ⟨⟨by decide, by decide, rfl⟩, by decide, by decide⟩,
    ⟨⟨by decide, by decide, rfl⟩, by decide, by decide⟩⟩

/-- Every offset of the window can be read and written next; 0, 15 and the edges between the registers are among them. -/
theorem nextRead_any (off : Nat) (h : off < 16) : (waiting [.read off 1]).NextRead off [] :=
  ⟨reset_valid.1, h, by simp [waiting, State.reset, State.resetWith, Config.reference]⟩

theorem nextWrite_any (off : Nat) (v : Byte) (h : off < 16) : (waiting [.write off 1 v]).NextWrite off v [] :=
  ⟨reset_valid.1, h, by simp [waiting, State.reset, State.resetWith, Config.reference]⟩

theorem witness_RegisterMap :
    ((waiting [.read 0 1]).NextRead 0 [] ∧ (waiting [.read 1 1]).NextRead 1 [] ∧ (waiting [.read 2 1]).NextRead 2 [] ∧
      (waiting [.read 3 1]).NextRead 3 [] ∧ (waiting [.read 4 1]).NextRead 4 [] ∧ (waiting [.read 8 1]).NextRead 8 [] ∧
      (waiting [.read 9 1]).NextRead 9 [] ∧ (waiting [.read 15 1]).NextRead 15 []) ∧
    ((waiting [.write 0 1 0xFF]).NextWrite 0 0xFF [] ∧ (waiting [.write 1 1 0xFF]).NextWrite 1 0xFF [] ∧
      (waiting [.write 2 1 0xFF]).NextWrite 2 0xFF [] ∧ (waiting [.write 15 1 0xFF]).NextWrite 15 0xFF []) :=
  ⟨⟨nextRead_any 0 (by decide), nextRead_any 1 (by decide), nextRead_any 2 (by decide), nextRead_any 3 (by decide),
      nextRead_any 4 (by decide), nextRead_any 8 (by decide), nextRead_any 9 (by decide), nextRead_any 15 (by decide)⟩,
    nextWrite_any 0 _ (by decide), nextWrite_any 1 _ (by decide), nextWrite_any 2 _ (by decide), nextWrite_any 15 _ (by decide)⟩

theorem witness_CommandRegistersHoldTheirBytes :
    (waiting [.write 0 1 0xFF]).NextWrite 0 0xFF [] ∧
    ((clearing [.write 1 1 0x10]).NextWrite 1 0x10 [] ∧ (clearing [.write 1 1 0x10]).busy = true) ∧
    ((waiting [.write 1 1 0x10]).NextWrite 1 0x10 [] ∧ (waiting [.write 1 1 0x10]).busy = false ∧
      decode (0x10#8 ++ (waiting [.write 1 1 0x10]).cmdl) = .instr .sread) ∧
    (waiting [.read 0 1]).NextRead 0 [] ∧ (waiting [.read 1 1]).NextRead 1 [] :=
  ⟨nextWrite_any 0 _ (by decide), ⟨⟨by decide, by decide, rfl⟩, by decide⟩,
    ⟨⟨by decide, by decide, rfl⟩, by decide, by decide⟩, nextRead_any 0 (by decide), nextRead_any 1 (by decide)⟩

theorem witness_StatusRegister : (waiting [.read 2 1]).NextRead 2 [] ∧ (waiting [.write 2 1 0xFF]).NextWrite 2 0xFF [] :=
  ⟨nextRead_any 2 (by decide), nextWrite_any 2 _ (by decide)⟩

theorem witness_FrameReadIsFreeWhileNotOk :
    ({ waiting [.read 4 1] with ok := true }.NextRead 4 [] ∧ { waiting [.read 8 1] with ok := true }.NextRead 8 []) ∧
    ((waiting [.read 4 1]).NextRead 4 [] ∧ (waiting [.read 8 1]).NextRead 8 [] ∧ (waiting [.read 8 1]).ok = false) ∧
    (waiting [.write 4 1 0xFF]).NextWrite 4 0xFF [] ∧ (waiting [.write 8 1 0xFF]).NextWrite 8 0xFF [] :=
  ⟨⟨⟨by decide, by decide, rfl⟩, ⟨by decide, by decide, rfl⟩⟩,
    ⟨nextRead_any 4 (by decide), nextRead_any 8 (by decide), rfl⟩, nextWrite_any 4 _ (by decide), nextWrite_any 8 _ (by decide)⟩

theorem witness_ReadOnlyWritesIgnored :
    (waiting [.write 0 1 0xFF]).NextWrite 0 0xFF [] ∧ (waiting [.write 1 1 0xFF]).NextWrite 1 0xFF [] ∧
    (waiting [.write 2 1 0xFF]).NextWrite 2 0xFF [] ∧ (waiting [.write 15 1 0xFF]).NextWrite 15 0xFF [] :=
  ⟨nextWrite_any 0 _ (by decide), nextWrite_any 1 _ (by decide), nextWrite_any 2 _ (by decide), nextWrite_any 15 _ (by decide)⟩

/-- A read that spends a free value (offset 4, OK = 0) and one that spends none (offset 15). -/
theorem witness_ReadsChangeNothing :
    (waiting [.read 4 1]).NextRead 4 [] ∧ (waiting [.read 4 1]).ok = false ∧ (waiting [.read 15 1]).NextRead 15 [] :=
  ⟨nextRead_any 4 (by decide), rfl, nextRead_any 15 (by decide)⟩

theorem witness_OtherWidthsRefused :
    State.reset.cfg.Valid ∧
    (waiting [.read 15 2]).schedule = .read ((waiting []).cfg.baseAddr + 15) 2 :: [] ∧
    (waiting [.write 0 0 0]).schedule = .write ((waiting []).cfg.baseAddr + 0) 0 0 :: [] ∧
    (waiting [.read 15 1]).schedule = .read ((waiting []).cfg.baseAddr + 15) 1 :: [] ∧
    (waiting [.write 15 1 0]).schedule = .write ((waiting []).cfg.baseAddr + 15) 1 0 :: [] := by decide

/-- The reset block with its window at host addresses 64 to 79. -/
def based (es : List Event) : State := { State.resetWith { Config.reference with baseAddr := 64 } with schedule := es }

/-- The last address below a window and the first above it. -/
theorem witness_OutsideWindowFaults :
    (based [.read 63 1]).cfg.Valid ∧ 63 < (based [.read 63 1]).cfg.baseAddr ∧
    (based [.write 80 1 0]).cfg.Valid ∧ (based [.write 80 1 0]).cfg.baseAddr + 16 ≤ 80 := by decide

theorem witness_RunWithoutHostIsTicks : State.reset.cfg.Valid ∧ State.reset.schedule = [] := by decide

theorem witness_WaitIdlePolls :
    ((waiting [.waitIdle]).cfg.Valid ∧ (waiting [.waitIdle]).schedule = .waitIdle :: [] ∧ (waiting [.waitIdle]).busy = false) ∧
    ((clearing [.waitIdle]).cfg.Valid ∧ (clearing [.waitIdle]).schedule = .waitIdle :: [] ∧
      (clearing [.waitIdle]).busy = true) := by decide

theorem witness_ResetFromAnyState : (clearing [.reset]).cfg.Valid ∧ (clearing [.reset]).schedule = .reset :: [] := by decide

/-- A reset that interrupts a display operation on a driven bus, and resets that do not: idle, in an SREAD, undriven. -/
theorem witness_ResetAbortMarker :
    (∃ u, step (clearing [.reset]) = .next u) ∧ (clearing [.reset]).seq = .running .dclear [.repeatTick 5] ∧
    (clearing [.reset]).dOe = true ∧
    (∃ u, step (waiting [.reset]) = .next u) ∧ (waiting [.reset]).seq = .idle ∧
    (∃ u, step { running .sread 0x1000 [.repeatTick 5] with schedule := [.reset] } = .next u) ∧
    (∃ u, step { running .dclear 0x5000 [.repeatTick 5] with schedule := [.reset] } = .next u) ∧
    (running .dclear 0x5000 [.repeatTick 5]).dOe = false :=
  ⟨⟨_, rfl⟩, rfl, rfl, ⟨_, rfl⟩, rfl, ⟨_, rfl⟩, ⟨_, rfl⟩, rfl⟩

theorem witness_SreadAccepted : State.reset.cfg.Valid ∧ State.reset.busy = false := reset_valid
theorem witness_ByteCommandsAccepted : State.reset.cfg.Valid ∧ State.reset.busy = false ∧ 15 < 16 := by decide
theorem witness_ClearCommandsAccepted : State.reset.cfg.Valid ∧ State.reset.busy = false ∧ 15 < 16 := by decide

/-- With no wait before the first pulse (the reference record) and with one. -/
theorem witness_DinitAccepted :
    (State.reset.cfg.Valid ∧ State.reset.busy = false ∧ State.reset.cfg.initWait0Ticks = 0) ∧
    (State.resetWith { Config.reference with initWait0Ticks := 1 }).cfg.Valid ∧
    (State.resetWith { Config.reference with initWait0Ticks := 1 }).busy = false := by decide

theorem witness_PresentedWhileBusyOverruns : (clearing []).busy = true := by decide
theorem witness_AcceptedIsBusy : State.reset.cfg.Valid ∧ State.reset.busy = false := reset_valid

/-- SREAD, DINIT and another command presented to an idle block, and one to a busy block. -/
theorem witness_PresentingFrame :
    State.reset.cfg.Valid ∧ (∃ u, exec .sread State.reset = .next u) ∧ (∃ u, exec .dinit State.reset = .next u) ∧
    (∃ u, exec (.dclrrow 15) State.reset = .next u) ∧ (clearing []).cfg.Valid ∧ (∃ u, exec .sread (clearing []) = .next u) :=
  ⟨by decide, ⟨_, rfl⟩, ⟨_, rfl⟩, ⟨_, rfl⟩, by decide, ⟨_, rfl⟩⟩

/-- A nibble with more of the procedure behind it, and the first nibble of a DINIT as its acceptance leaves it. -/
theorem witness_NibbleLatch :
    State.reset.cfg.Valid ∧
    (running .dcmd 0x30F0 (writeNibble Config.reference 0xF ++ [.repeatTick 1])).StandsAt .dcmd
      (writeNibble Config.reference 0xF ++ [.repeatTick 1]) ∧
    ∃ u, exec .dinit State.reset = .next u ∧
      u.StandsAt .dinit (writeNibble Config.reference 0x3 ++ (dinitProc Config.reference).drop 12) :=
  ⟨reset_valid.1, ⟨_, rfl, rfl, rfl⟩, _, rfl, _, rfl, by decide, by decide⟩

/-- A byte that is still to begin, and the byte of a DDATA as its acceptance leaves it. -/
theorem witness_ByteWrite :
    State.reset.cfg.Valid ∧
    (running .ddata 0x40F0 (writeByte Config.reference true 0xF0)).StandsAt .ddata (writeByte Config.reference true 0xF0 ++ []) ∧
    ∃ u, exec (.ddata 0xF0) State.reset = .next u ∧ u.StandsAt .ddata (writeByte Config.reference true 0xF0 ++ []) :=
  ⟨reset_valid.1, ⟨_, rfl, by decide, by decide⟩, _, rfl, _, rfl, by decide, by decide⟩

/-- Each command whose procedure begins with a byte. -/
theorem witness_DisplayPinsFromAcceptance (c : Config) :
    (State.reset.cfg.Valid ∧ State.reset.busy = false ∧ 1 ≤ 102 ∧ 102 ≤ State.reset.cfg.nibbleTicks) ∧
    procedureOf c (.dcmd 0xA5) = writeByte c false 0xA5 ++ [] ∧
    procedureOf c (.ddata 0xA5) = writeByte c true 0xA5 ++ [] ∧
    procedureOf c (.dsetcur 15 15) = writeByte c false (positionByte c 15 15) ++ [] ∧
    procedureOf c .dclear = writeByte c false c.clearOpcode ++ [.repeatTick c.clearWaitTicks] ∧
    procedureOf c (.dclrrow 15) = writeByte c false (positionByte c 0 15) ++
      (writeBytes c true (List.replicate 16 c.spaceChar) ++ writeByte c false (positionByte c 0 15)) :=
  ⟨by decide, by simp [procedureOf], by simp [procedureOf], by simp [procedureOf], rfl,
    by simp only [procedureOf, clrrowProc, List.append_assoc]⟩

theorem witness_DcmdCompletes : State.reset.cfg.Valid ∧ State.reset.busy = false := reset_valid
theorem witness_DdataCompletes : State.reset.cfg.Valid ∧ State.reset.busy = false := reset_valid
theorem witness_DsetcurCompletes : State.reset.cfg.Valid ∧ State.reset.busy = false ∧ 15 < 16 := by decide
theorem witness_CursorBytesAtReference : 15 < 16 := by decide
theorem witness_DclearCompletes : State.reset.cfg.Valid ∧ State.reset.busy = false := reset_valid
theorem witness_DclrrowCompletes : State.reset.cfg.Valid ∧ State.reset.busy = false ∧ 15 < 16 := by decide
theorem witness_DinitCompletes : State.reset.cfg.Valid ∧ State.reset.busy = false := reset_valid

/-! Legal states at the points the whole-machine statements speak of. -/

/-- The start pulse of an SREAD, with its last tick to come. -/
def starting (es : List Event) : State :=
  { running .sread 0x1000 (.repeatTick 1 :: (sreadProc Config.reference).drop 5) with sDir := true, schedule := es }

/-- An SREAD whose frame is all zero, with its last sample to come. -/
def receiving (es : List Event) : State :=
  { running .sread 0x1000 [.sample false .bitHigh 39, .shiftBit 39, .validate] with sensor := [false], schedule := es }

/-- A DINIT with its last tick to come. -/
def bringingUp (es : List Event) : State :=
  { running .dinit 0x2000 [.repeatTick 1, .setInitd true] with dOe := true, schedule := es }

/-- An idle block after a DINIT and a validated SREAD of the all-zero frame. -/
def served (es : List Event) : State :=
  { State.reset with ok := true, lastResult := .okFrame, initd := true, dOe := true, schedule := es }

theorem starting_legal (es : List Event) : (starting es).Legal := by
  refine ⟨reset_valid.1, ⟨by decide, .sread, rfl, rfl, rfl, ?_⟩, ?_, rfl, by rfl, by simp [starting, running, State.reset,
    State.resetWith], ?_, ?_⟩
  · exact ⟨(sreadProc Config.reference).take 4, (sreadProc Config.reference).drop 4, (List.take_append_drop 4 _).symm,
      .inr ⟨18000, 1, (sreadProc Config.reference).drop 5, rfl, by decide, rfl⟩⟩
  · constructor <;>
      simp [starting, running, State.reset, State.resetWith, Config.reference, Op.isDisplay, sreadProc]
  · intro h; cases h
  · intro _ b h; cases h

set_option maxRecDepth 4000 in
theorem receiving_legal (es : List Event) : (receiving es).Legal := by
  refine ⟨reset_valid.1, ⟨by decide, .sread, rfl, rfl, rfl, ?_⟩, ?_, rfl, by rfl, by simp [receiving, running, State.reset,
    State.resetWith], ?_, ?_⟩
  · exact ⟨(sreadProc Config.reference).take 210, (sreadProc Config.reference).drop 210, (List.take_append_drop 210 _).symm, .inl (by rfl)⟩
  · constructor <;>
      simp [receiving, running, State.reset, State.resetWith, Config.reference, Op.isDisplay]
  · intro h; cases h
  · intro _ b h; cases h

theorem bringingUp_legal (es : List Event) : (bringingUp es).Legal := by
  refine ⟨reset_valid.1, ⟨by decide, .dinit, rfl, rfl, rfl, ?_⟩, ?_, rfl, by rfl, by simp [bringingUp, running, State.reset,
    State.resetWith], ?_, ?_⟩
  · exact ⟨(dinitProc Config.reference).take 57, (dinitProc Config.reference).drop 57, (List.take_append_drop 57 _).symm,
      .inr ⟨2000, 1, [.setInitd true], by rfl, by decide, rfl⟩⟩
  · constructor <;>
      simp [bringingUp, running, State.reset, State.resetWith, Config.reference, Op.isDisplay]
  · intro h; cases h
  · intro _ b h; cases h

theorem served_legal (es : List Event) : (served es).Legal := by
  refine ⟨reset_valid.1, trivial, ?_, rfl, by rfl, by simp [served, State.reset, State.resetWith], ?_, ?_⟩
  · constructor <;> simp [served, State.reset, State.resetWith, Config.reference]
    decide
  · intro h; cases h
  · intro _ b h; cases h

theorem witness_SensorLineLevel : (starting []).Legal ∧ State.reset.Legal ∧ (receiving []).Legal :=
  ⟨starting_legal [], reset_legal, receiving_legal []⟩

/-- An idle legal state, and legal states in an SREAD and in a DINIT with the bus driven. -/
theorem witness_TickFrame :
    (State.reset.Legal ∧ State.reset.seq = .idle ∧ (tick State.reset).dOe = false) ∧ (receiving []).Legal ∧
    ((bringingUp []).Legal ∧ (tick (bringingUp [])).dOe = true) :=
  ⟨⟨reset_legal, rfl, rfl⟩, receiving_legal _, bringingUp_legal _, by decide⟩

/-- The ACK_LOW wait of an SREAD as its start pulse leaves it: the line is still to be released. -/
def acknowledging (levels : List Level) : State :=
  { running .sread 0x1000 ([.setSDir false] ++ waitLevel false .ackLow 0 ++ []) with sDir := true, sensor := levels }

/-- A wait that succeeds on its first sample, one on its last, and one that times out. -/
theorem witness_BoundedWait :
    State.reset.cfg.Valid ∧ (∀ st ∈ [Stmt.setSDir false], Stmt.takesTick st = false) ∧
    (∀ l, (acknowledging l).seq = .running .sread ([.setSDir false] ++ waitLevel false .ackLow 0 ++ [])) ∧
    (∀ l, (runDue [.setSDir false] (acknowledging l)).sDir = false) ∧
    1 ≤ State.reset.cfg.waitCeil ∧ State.reset.cfg.waitCeil ≤ State.reset.cfg.waitCeil ∧
    (acknowledging [false]).sensor = waitSamples false 1 ++ [] ∧
    (acknowledging (waitSamples false 200)).sensor = waitSamples false Config.reference.waitCeil ++ [] ∧
    (acknowledging (List.replicate 200 true)).sensor = List.replicate Config.reference.waitCeil (!false) ++ [] :=
  ⟨reset_valid.1, by decide, fun _ => rfl, fun _ => rfl, by decide, by decide, rfl, by simp [Config.reference, acknowledging],
    by simp [Config.reference, acknowledging]⟩

/-- A high phase of one more sample than the threshold, and of exactly the threshold (R64, corner case 3). -/
theorem witness_BitDecisionIsStrict :
    { State.reset with wcnt := 41 }.wcnt > State.reset.cfg.bitThreshold ∧
    { State.reset with wcnt := 40 }.wcnt ≤ State.reset.cfg.bitThreshold := by decide

theorem witness_FrameAssembly :
    State.reset.cfg.Valid ∧ State.reset.busy = false ∧ 39 < 40 ∧ (List.replicate 40 true).length = 40 ∧ 4 < 5 ∧ 4 = 39 / 8 := by
  decide

/-- A frame whose sum wraps and one that does not match (R64, corner case 6). -/
theorem witness_ChecksumValidation :
    ((let s := { State.reset with acc := #v[200, 100, 50, 10, 104] }
      (s.acc[0].toNat + s.acc[1].toNat + s.acc[2].toNat + s.acc[3].toNat) % 256 = s.acc[4].toNat)) ∧
    ((let s := { State.reset with acc := #v[45, 0, 23, 0, 69] }
      (s.acc[0].toNat + s.acc[1].toNat + s.acc[2].toNat + s.acc[3].toNat) % 256 ≠ s.acc[4].toNat)) := by decide

/-- The reset block with the sensor's coming levels. -/
def sensing (levels : List Level) : State := { State.reset with sensor := levels }

/-- Every wait succeeding on its first sample, and every wait on its last. -/
theorem witness_SreadReadsFrame :
    State.reset.cfg.Valid ∧ State.reset.busy = false ∧
    (List.replicate 18000 true).length = State.reset.cfg.startTicks ∧
    ((List.replicate 83 1).length = 83 ∧ (∀ k ∈ List.replicate 83 1, 1 ≤ k ∧ k ≤ State.reset.cfg.waitCeil) ∧
      (sensing (List.replicate 18000 true ++ samplesOf sreadWaits (List.replicate 83 1) ++ [])).sensor =
        List.replicate 18000 true ++ samplesOf sreadWaits (List.replicate 83 1) ++ []) ∧
    ((List.replicate 83 200).length = 83 ∧ (∀ k ∈ List.replicate 83 200, 1 ≤ k ∧ k ≤ State.reset.cfg.waitCeil) ∧
      (sensing (List.replicate 18000 true ++ samplesOf sreadWaits (List.replicate 83 200) ++ [])).sensor =
        List.replicate 18000 true ++ samplesOf sreadWaits (List.replicate 83 200) ++ []) :=
  ⟨reset_valid.1, reset_valid.2, List.length_replicate,
    ⟨List.length_replicate, fun k h => by rw [List.eq_of_mem_replicate h]; decide, rfl⟩,
    ⟨List.length_replicate, fun k h => by rw [List.eq_of_mem_replicate h]; decide, rfl⟩⟩

/-- The first of the 83 waits timing out, and the last, after 82 that succeeded. -/
theorem witness_SreadTimesOut :
    State.reset.cfg.Valid ∧ State.reset.busy = false ∧
    (List.replicate 18000 true).length = State.reset.cfg.startTicks ∧
    (sreadWaits = [] ++ (false, .ackLow, 0) :: sreadWaits.tail ∧ ([] : List Nat).length = ([] : List (Level × Stage × Nat)).length ∧
      (sensing (List.replicate 18000 true ++ samplesOf [] [] ++ List.replicate 200 true ++ [])).sensor =
        List.replicate 18000 true ++ samplesOf [] [] ++ List.replicate State.reset.cfg.waitCeil (!false) ++ []) ∧
    (sreadWaits = sreadWaits.take 82 ++ (false, .bitHigh, 39) :: [] ∧
      (List.replicate 82 1).length = (sreadWaits.take 82).length ∧
      (∀ k ∈ List.replicate 82 1, 1 ≤ k ∧ k ≤ State.reset.cfg.waitCeil) ∧
      (sensing (List.replicate 18000 true ++ samplesOf (sreadWaits.take 82) (List.replicate 82 1) ++
          List.replicate 200 true ++ [])).sensor =
        List.replicate 18000 true ++ samplesOf (sreadWaits.take 82) (List.replicate 82 1) ++
          List.replicate State.reset.cfg.waitCeil (!false) ++ []) :=
  ⟨reset_valid.1, reset_valid.2, List.length_replicate, ⟨rfl, rfl, rfl⟩,
    ⟨rfl, rfl, fun k h => by rw [List.eq_of_mem_replicate h]; decide, rfl⟩⟩

theorem witness_SreadNeverHangs : State.reset.cfg.Valid ∧ State.reset.busy = false := reset_valid

/-- OK rising at the end of an SREAD, falling as the next is accepted, and falling at a reset. -/
theorem witness_OkChangesOnlyBySread :
    ((receiving []).Legal ∧ (receiving []).ok = false ∧ ∃ u, step (receiving []) = .next u ∧ u.ok = true) ∧
    ((served [.write 1 1 0x10]).Legal ∧ (served [.write 1 1 0x10]).ok = true ∧
      ∃ u, step (served [.write 1 1 0x10]) = .next u ∧ u.ok = false) ∧
    ((served [.reset]).Legal ∧ (served [.reset]).ok = true ∧ ∃ u, step (served [.reset]) = .next u ∧ u.ok = false) :=
  ⟨⟨receiving_legal _, rfl, _, rfl, by decide⟩, ⟨served_legal _, rfl, _, rfl, by decide⟩,
    ⟨served_legal _, rfl, _, rfl, by decide⟩⟩

/-- INITD rising at the end of a DINIT, falling as the next is accepted, and falling at a reset. -/
theorem witness_InitdChangesOnlyByDinit :
    ((bringingUp []).Legal ∧ (bringingUp []).initd = false ∧ ∃ u, step (bringingUp []) = .next u ∧ u.initd = true) ∧
    ((served [.write 1 1 0x20]).Legal ∧ (served [.write 1 1 0x20]).initd = true ∧
      ∃ u, step (served [.write 1 1 0x20]) = .next u ∧ u.initd = false) ∧
    ((served [.reset]).Legal ∧ (served [.reset]).initd = true ∧ ∃ u, step (served [.reset]) = .next u ∧ u.initd = false) :=
  ⟨⟨bringingUp_legal _, rfl, _, rfl, by decide⟩, ⟨served_legal _, rfl, _, rfl, by decide⟩,
    ⟨served_legal _, rfl, _, rfl, by decide⟩⟩

/-- Both bits kept by a tick, ILL rising, OVR rising. -/
theorem witness_ErrorBitsAreSticky :
    (∃ u, step { State.reset with ill := true, ovr := true } = .next u ∧ u.ill = true ∧ u.ovr = true) ∧
    (∃ u, step (waiting [.write 1 1 0x00]) = .next u ∧ u.ill = true) ∧
    (∃ u, step (clearing [.write 1 1 0x00]) = .next u ∧ u.ovr = true) :=
  ⟨⟨_, rfl, rfl, rfl⟩, ⟨_, rfl, by decide⟩, ⟨_, rfl, by decide⟩⟩

theorem witness_RunningOperationUndisturbed :
    (clearing [.write 1 1 0x10]).busy = true ∧ (clearing [.write 1 1 0x10]).schedule = .write 1 1 0x10 :: [] ∧
    Event.write 1 1 0x10 ≠ .tick ∧ Event.write 1 1 0x10 ≠ .reset ∧ ∃ u, step (clearing [.write 1 1 0x10]) = .next u :=
  ⟨by decide, rfl, by decide, by decide, _, rfl⟩

/-- The registers as an SREAD is accepted, and the pins of a tick of its start pulse. -/
theorem witness_OnlySreadDrivesTheLine :
    ((waiting [.write 1 1 0x10]).Legal ∧ ∃ u, step (waiting [.write 1 1 0x10]) = .next u ∧ u.sDir = true) ∧
    ((starting []).Legal ∧ ∃ u p, step (starting []) = .next u ∧ u.pinTrace = (starting []).pinTrace ++ [p] ∧ p.sDir = true) := by
  refine ⟨⟨⟨reset_legal.1, trivial, ?_, reset_legal.2.2.2⟩, _, rfl, by decide⟩, starting_legal _, _, _, rfl, rfl, rfl⟩
  constructor <;> simp [waiting, State.reset, State.resetWith, Config.reference]

theorem witness_LatchLogIsEnableFalls : State.reset.Legal ∧ ∃ u, step State.reset = .next u := ⟨reset_legal, _, rfl⟩
theorem witness_ResetIsLegal : Config.reference.Valid := by decide
theorem witness_StepKeepsLegal :
    (State.reset.Legal ∧ ∃ u, step State.reset = .next u) ∧ ((receiving []).Legal ∧ ∃ u, step (receiving []) = .next u) ∧
    ((bringingUp [.reset]).Legal ∧ ∃ u, step (bringingUp [.reset]) = .next u) :=
  ⟨⟨reset_legal, _, rfl⟩, ⟨receiving_legal _, _, rfl⟩, ⟨bringingUp_legal _, _, rfl⟩⟩

theorem witness_HazardFreeStepNeverOverruns :
    hazards .powerOn { State.reset with ovr := true } = [] ∧
    ∃ u, step { State.reset with ovr := true } = .next u ∧ u.ovr = true :=
  ⟨by decide, _, rfl, rfl⟩

/-- The eager host, and one that lets a tick pass between its two writes. -/
theorem witness_ReferenceHostNeverOverruns :
    State.reset.cfg.Valid ∧ State.reset.ovr = false ∧
    (referenceHost Config.reference [0x1000, 0x0000]).filter (· != .tick) = referenceHost State.reset.cfg [0x1000, 0x0000] ∧
    (∃ u, Host.Core.run Sys2Proof.core 3 (waiting (referenceHost Config.reference [0x1000, 0x0000])) = .next u) ∧
    [Event.waitIdle, .write 0 1 0x00, .tick, .write 1 1 0x10, .waitIdle].filter (· != .tick) =
      referenceHost State.reset.cfg [0x1000] ∧
    (∃ u, Host.Core.run Sys2Proof.core 4 (waiting [.waitIdle, .write 0 1 0x00, .tick, .write 1 1 0x10, .waitIdle]) = .next u) :=
  ⟨reset_valid.1, rfl, by decide, ⟨_, rfl⟩, by decide, ⟨_, rfl⟩⟩

end Sys2Proof.Tests
end

/-!
Scope (00_scope R5, R6, R9): a step with no event listed is a tick, a tick keeps the configuration and the schedule, and a step
is refused as badly configured exactly when the configuration is not valid.
-/

namespace Sys2Proof.Machine

/-! ### What a tick keeps -/

/-- What neither a statement nor SEQ, WCNT and LAST_RESULT change, the end of a tick does not change. -/
theorem settle_keeps {α : Type} {f : State → α} (hperform : ∀ st s, f (perform st s) = f s)
    (hseq : ∀ s w r q, f { s with wcnt := w, lastResult := r, seq := q } = f s) (op : Op) (rest : List Stmt) (s : State) :
    f (settle op rest s) = f s := by
  by_cases hp : pending rest = []
  · rw [settle_last hp, runDue_keeps hperform]
    exact hseq s s.wcnt s.lastResult .idle
  · rw [settle_more hp]
    exact hseq s s.wcnt s.lastResult (.running op rest)

theorem endTick_keeps {α : Type} {f : State → α} (hperform : ∀ st s, f (perform st s) = f s)
    (hseq : ∀ s w r q, f { s with wcnt := w, lastResult := r, seq := q } = f s) (op : Op) (k : List Stmt) (level : Level)
    (s : State) : f (endTick op (pending k) level s) = f s := by
  obtain ⟨n, rest, -, -, h⟩ | ⟨stage, i, rest, -, h⟩ | ⟨want, stage, i, rest, -, -, -, h⟩ |
    ⟨want, stage, i, rest, -, -, -, h⟩ | ⟨-, h⟩ := endTick_cases op k level s <;> rw [h]
  · exact settle_keeps hperform hseq op _ s
  · rw [settle_keeps hperform hseq]
    exact hseq s (s.wcnt + 1) s.lastResult s.seq
  · exact hseq s (s.wcnt + 1) (.timeout stage i) .idle
  · exact hseq s (s.wcnt + 1) s.lastResult (.running op (pending k))
  · exact hseq s s.wcnt s.lastResult .idle

theorem tick_keeps {α : Type} {f : State → α} (hperform : ∀ st s, f (perform st s) = f s)
    (hseq : ∀ s w r q, f { s with wcnt := w, lastResult := r, seq := q } = f s) (hpass : ∀ s : State, f s.passTick = f s)
    (s : State) : f (tick s) = f s := by
  cases hs : s.seq with
  | idle => rw [tick_idle hs, hpass]
  | running op rest => rw [tick_running hs, endTick_keeps hperform hseq, hpass, runDue_keeps hperform]

@[simp] theorem tick_cfg (s : State) : (tick s).cfg = s.cfg :=
  tick_keeps perform_cfg (fun _ _ _ _ => rfl) passTick_cfg s

@[simp] theorem tick_schedule (s : State) : (tick s).schedule = s.schedule :=
  tick_keeps perform_schedule (fun _ _ _ _ => rfl) passTick_schedule s

/-! ### The branches of a step -/

theorem step_tick_of_noEvent {s : State} (hv : s.cfg.Valid) (hs : s.schedule = []) : step s = .next (tick s) := by
  rw [step, if_pos hv, hs]

theorem step_event {s : State} {e : Event} {es : List Event} (hv : s.cfg.Valid) (hs : s.schedule = e :: es) :
    step s = react e { s with schedule := es } := by
  rw [step, if_pos hv, hs]

theorem step_of_invalid {s : State} (hv : ¬ s.cfg.Valid) : step s = .refused .badConfig := if_neg hv

/-- A run takes its first step and goes on. -/
theorem run_succ_of_next {M : Host.Core} {s s' : M.State} (h : M.step s = .next s') (n : Nat) :
    M.run (n + 1) s = M.run n s' := by
  rw [Host.Core.run, h]

/-! ### No event is refused as badly configured -/

/-- A window write of one byte is always performed. -/
theorem writeReg_answers (r : Reg) (v : Byte) (s : State) : ∃ u, writeReg r v s = .next u := by
  cases r with
  | cmdh =>
    obtain ⟨-, h⟩ | ⟨-, why, -, h⟩ | ⟨-, i, -, h⟩ := present_cases v s <;> exact ⟨_, h⟩
  | _ => exact ⟨_, rfl⟩

theorem hostRead_ne_badConfig (addr n : Nat) (s : State) : hostRead addr n s ≠ .refused .badConfig := by
  unfold hostRead
  split
  · simp
  · split <;> simp

theorem hostWrite_ne_badConfig (addr n : Nat) (v : Byte) (s : State) : hostWrite addr n v s ≠ .refused .badConfig := by
  unfold hostWrite
  split
  · simp
  next off _ =>
    split
    · obtain ⟨u, hu⟩ := writeReg_answers (regAt off) v (s.logAccess (.write addr v))
      simp [hu]
    · simp

theorem react_ne_badConfig (e : Event) (s : State) : react e s ≠ .refused .badConfig := by
  cases e with
  | read addr n => exact hostRead_ne_badConfig addr n s
  | write addr n v => exact hostWrite_ne_badConfig addr n v s
  | _ => simp [react]

/-- The refusal is the configuration's alone: with a valid one, neither a tick nor an event answers it. -/
theorem step_badConfig_iff (s : State) : step s = .refused .badConfig ↔ ¬ s.cfg.Valid := by
  refine ⟨fun h hv => ?_, step_of_invalid⟩
  cases hs : s.schedule with
  | nil => rw [step_tick_of_noEvent hv hs] at h; cases h
  | cons e es => exact react_ne_badConfig e _ ((step_event hv hs).symm.trans h)

/-! ### The obligations -/

/-- Settles O20, by induction on the number of steps: each is a tick, and a tick keeps the configuration valid and the schedule
empty. -/
theorem runWithoutHostIsTicks : Obligations.RunWithoutHostIsTicks := by
  intro s n hv hs
  induction n generalizing s with
  | zero => rfl
  | succ n ih =>
    rw [run_succ_of_next (M := Sys2Proof.core) (step_tick_of_noEvent hv hs), ticks_succ]
    exact ih (tick s) (by rwa [tick_cfg]) (by rwa [tick_schedule])

/-- Settles O18: the refusal says that the configuration is not valid, and each conjunct of `Config.Valid` fails as one of the
listed disjuncts. -/
theorem badConfigurationRefused : Obligations.BadConfigurationRefused := by
  intro s
  rw [step_badConfig_iff, Config.Valid]
  omega

end Sys2Proof.Machine

/-!
Accesses and commands (10_state R15 to R25, 30_encoding R49): what a window access does, what a presented command does and leaves
alone, and `StepEffect`, what a step did.
-/

namespace Sys2Proof.Machine

/-! ### Window accesses -/

theorem step_of_nextRead {s : State} {off : Nat} {es : List Event} (h : s.NextRead off es) :
    step s = .next (readReg (s.cfg.baseAddr + off) (regAt off) { s with schedule := es }) := by
  obtain ⟨hv, hoff, hs⟩ := h
  rw [step_event hv hs, react, hostRead, windowOffset_eq hoff]
  rfl

theorem step_of_nextWrite {s : State} {off : Nat} {v : Byte} {es : List Event} (h : s.NextWrite off v es) :
    step s = writeReg (regAt off) v (s.wrote off v es) := by
  obtain ⟨hv, hoff, hs⟩ := h
  rw [step_event hv hs, react, hostWrite, windowOffset_eq hoff]
  rfl

theorem regAt_frame (i : Fin 5) : regAt (4 + i.val) = .frame i := by
  revert i; decide

/-! ### The word of a decoded command -/

theorem word_eq_fields (w : Word) : w = opField w ++ (aField w ++ immField w) := by
  unfold opField aField immField
  rw [BitVec.extractLsb'_append_extractLsb'_eq_extractLsb' (start₁ := 0) (start₂ := 8) rfl,
    BitVec.extractLsb'_append_extractLsb'_eq_extractLsb' (start₁ := 0) (start₂ := 12) rfl]
  exact (BitVec.extractLsb'_eq_self).symm

theorem immField_eq_nibbles (w : Word) : immField w = immHighField w ++ colField w := by
  unfold immField immHighField colField
  rw [BitVec.extractLsb'_append_extractLsb'_eq_extractLsb' (start₁ := 0) (start₂ := 4) rfl]

/-- A word of the operation code `op` is known from its two operand fields. -/
theorem word_of_fields {w : Word} {op : Nibble} (h : (opField w).toNat = op.toNat) : w = op ++ (aField w ++ immField w) := by
  rw [← BitVec.eq_of_toNat_eq h]
  exact word_eq_fields w

theorem decodeBare_eq_instr {w : Word} {i j : Instr} (h : decodeBare i w = .instr j) :
    j = i ∧ aField w = 0 ∧ immField w = 0 := by
  unfold decodeBare at h
  split at h
  · cases h
  next ha =>
    split at h
    · cases h
    next hi => cases h; exact ⟨rfl, not_not.mp ha, not_not.mp hi⟩

theorem decodeByteOperand_eq_instr {w : Word} {f : Byte → Instr} {j : Instr} (h : decodeByteOperand f w = .instr j) :
    j = f (immField w) ∧ aField w = 0 := by
  unfold decodeByteOperand at h
  split at h
  · cases h
  next ha => cases h; exact ⟨rfl, not_not.mp ha⟩

/-- A word that decodes is the word of the command it decodes to, whose operands are in their ranges (30_encoding R47). -/
theorem decode_eq_instr {w : Word} {i : Instr} (h : decode w = .instr i) : i.wellFormed = true ∧ encode i = w := by
  unfold decode at h
  split at h
  case h_2 hop =>
    obtain ⟨rfl, ha, hi⟩ := decodeBare_eq_instr h
    rw [word_of_fields (op := 1) hop, ha, hi]; exact ⟨rfl, rfl⟩
  case h_3 hop =>
    obtain ⟨rfl, ha, hi⟩ := decodeBare_eq_instr h
    rw [word_of_fields (op := 2) hop, ha, hi]; exact ⟨rfl, rfl⟩
  case h_4 hop =>
    obtain ⟨rfl, ha⟩ := decodeByteOperand_eq_instr h
    refine ⟨rfl, ?_⟩
    conv_rhs => rw [word_of_fields (op := 3) hop, ha]
    exact BitVec.append_assoc (x₁ := 3#4) (x₂ := 0#4) (x₃ := immField w)
  case h_5 hop =>
    obtain ⟨rfl, ha⟩ := decodeByteOperand_eq_instr h
    refine ⟨rfl, ?_⟩
    conv_rhs => rw [word_of_fields (op := 4) hop, ha]
    exact BitVec.append_assoc (x₁ := 4#4) (x₂ := 0#4) (x₃ := immField w)
  case h_6 hop =>
    obtain ⟨rfl, ha, hi⟩ := decodeBare_eq_instr h
    rw [word_of_fields (op := 5) hop, ha, hi]; exact ⟨rfl, rfl⟩
  case h_7 hop =>
    split at h
    · cases h
    next hi =>
      cases h
      refine ⟨by simp [Instr.wellFormed, (colField w).isLt, (aField w).isLt], ?_⟩
      conv_rhs => rw [word_of_fields (op := 6) hop, immField_eq_nibbles, not_not.mp hi]
      simp [encode]
  case h_8 hop =>
    split at h
    · cases h
    next hi =>
      cases h
      refine ⟨by simp [Instr.wellFormed, (aField w).isLt], ?_⟩
      conv_rhs => rw [word_of_fields (op := 7) hop, not_not.mp hi]
      simp [encode]
  all_goals cases h

/-! ### Presenting a command -/

/-- Every procedure but those of SREAD and DINIT begins with a byte (41_displaylink R74 to R78). -/
theorem procedureOf_eq_writeByte_append (c : Config) {i : Instr} (hs : i.op ≠ .sread) (hd : i.op ≠ .dinit) :
    ∃ rs b r, procedureOf c i = writeByte c rs b ++ r := by
  cases i with
  | sread => exact absurd rfl hs
  | dinit => exact absurd rfl hd
  | dcmd b => exact ⟨_, _, [], (List.append_nil _).symm⟩
  | ddata b => exact ⟨_, _, [], (List.append_nil _).symm⟩
  | dclear => exact ⟨_, _, _, rfl⟩
  | dsetcur col row => exact ⟨_, _, [], (List.append_nil _).symm⟩
  | dclrrow row => exact ⟨_, _, _, List.append_assoc _ _ _⟩

/-- What acceptance leaves of a state and what it writes, by operation (40_sensorlink R64, 41_displaylink R70 to R78). -/
theorem accept_cases {s : State} (hv : s.cfg.Valid) (i : Instr) :
    let u := s.accept i.op (encode i) (procedureOf s.cfg i)
    let q := Seq.running i.op (pending (procedureOf s.cfg i))
    (i = .sread ∧ u = { s with
      ir := encode i, seq := q, ok := false, lastResult := .none, acc := Vector.replicate 5 0x00, bitI := 0, sDir := true }) ∨
    (i = .dinit ∧ ∃ n e, (s.dEn = false → e = false) ∧ u = { s with
      ir := encode i, seq := q, initd := false, dOe := true, dRs := false, dDb := n, dEn := e }) ∨
    (i.op ≠ .sread ∧ i.op ≠ .dinit ∧ ∃ rs n, u = { s with
      ir := encode i, seq := q, dRs := rs, dDb := n, dEn := false }) := by
  dsimp only
  rw [accept_eq (procedureOf_pending_ne hv i)]
  by_cases hs : i = .sread
  · subst hs; exact .inl ⟨rfl, by rw [procedureOf, sreadProc_runDue hv]⟩
  by_cases hd : i = .dinit
  · subst hd
    refine .inr (.inl ⟨rfl, _, _, fun he => ?_, by rw [procedureOf, dinitProc_runDue hv]⟩)
    simp [he]
  have hs' : i.op ≠ .sread := by rintro h; cases i <;> simp_all [Instr.op]
  have hd' : i.op ≠ .dinit := by rintro h; cases i <;> simp_all [Instr.op]
  obtain ⟨rs, b, r, hp⟩ := procedureOf_eq_writeByte_append s.cfg hs' hd'
  exact .inr (.inr ⟨hs', hd', rs, highNibble b, by rw [hp, writeByte_runDue hv]⟩)

/-- Every command on an idle block is busy at once (10_state R20). -/
theorem accept_seq {s : State} (hv : s.cfg.Valid) (i : Instr) :
    (s.accept i.op (encode i) (procedureOf s.cfg i)).seq = .running i.op (pending (procedureOf s.cfg i)) := by
  rw [accept_eq (procedureOf_pending_ne hv i)]

theorem accept_ir {s : State} (hv : s.cfg.Valid) (i : Instr) :
    (s.accept i.op (encode i) (procedureOf s.cfg i)).ir = encode i := by
  rw [accept_eq (procedureOf_pending_ne hv i)]

/-- Settles O29: the busy test of `issue` comes before anything else. -/
theorem presentedWhileBusyOverruns : Obligations.PresentedWhileBusyOverruns :=
  fun i _ hb => exec_busy hb i

/-- Settles O30: the first tick of every procedure is still to come at acceptance. -/
theorem acceptedIsBusy : Obligations.AcceptedIsBusy := by
  intro i s hv hb
  have hq := accept_seq hv i
  exact ⟨_, exec_idle hb i, by simp [busy_iff, hq], accept_ir hv i, _, hq⟩

/-- Settles O31, by the three kinds of acceptance; on a busy block only OVR moves. -/
theorem presentingFrame : Obligations.PresentingFrame := by
  intro i s u hv h
  cases hb : s.busy with
  | true =>
    rw [exec_busy hb i] at h; cases h
    simp
  | false =>
    rw [exec_idle hb i] at h; cases h
    obtain ⟨rfl, hu⟩ | ⟨rfl, n, e, -, hu⟩ | ⟨hs, hd, rs, n, hu⟩ := accept_cases hv i <;> rw [hu]
    · simp [Instr.op]
    · simp [Instr.op]
    · simp [hs]

/-! ### The command registers, STATUS and FRAME -/

theorem status_bits (s : State) :
    s.status.getLsbD 0 = s.busy ∧ s.status.getLsbD 1 = s.ok ∧ s.status.getLsbD 2 = s.initd ∧ s.status.getLsbD 3 = s.ill ∧
      s.status.getLsbD 4 = s.ovr ∧ s.status.extractLsb' 5 3 = 0 := by
  have bits : ∀ ovr ill initd ok busy : Bool,
      let v : Byte := 0#3 ++ (BitVec.ofBool ovr ++ (BitVec.ofBool ill ++ (BitVec.ofBool initd ++
        (BitVec.ofBool ok ++ BitVec.ofBool busy))))
      v.getLsbD 0 = busy ∧ v.getLsbD 1 = ok ∧ v.getLsbD 2 = initd ∧ v.getLsbD 3 = ill ∧ v.getLsbD 4 = ovr ∧
        v.extractLsb' 5 3 = 0 := by decide
  exact bits s.ovr s.ill s.initd s.ok s.busy

/-- A CMDH write stores its byte and leaves CMDL alone, whatever becomes of the command (10_state R18). -/
theorem present_stores {s : State} (hv : s.cfg.Valid) (v : Byte) :
    ∃ u, present v s = .next u ∧ u.cmdh = v ∧ u.cmdl = s.cmdl ∧ (s.busy = true → u.seq = s.seq ∧ u.ir = s.ir) ∧
      (s.busy = false → ∀ i, decode (wordOf v s.cmdl) = .instr i → u.ir = wordOf v s.cmdl) := by
  obtain ⟨hb, h⟩ | ⟨hb, why, hd, h⟩ | ⟨hb, i, hd, h⟩ := present_cases v s
  · exact ⟨_, h, rfl, rfl, fun _ => ⟨rfl, rfl⟩, by simp [hb]⟩
  · exact ⟨_, h, rfl, rfl, by simp [hb], by simp [hd]⟩
  · refine ⟨_, h, ?_⟩
    rw [accept_eq (procedureOf_pending_ne hv i)]
    simp [hb, hd, (decode_eq_instr hd).2]

/-- Settles O11: both stores precede the presentation, which leaves CMDL and CMDH alone. -/
theorem commandRegistersHoldTheirBytes : Obligations.CommandRegistersHoldTheirBytes := by
  refine ⟨fun s v es h => step_of_nextWrite h, fun s v es h => ?_, fun s es h => step_of_nextRead h,
    fun s es h => step_of_nextRead h, fun c => ⟨rfl, rfl⟩⟩
  rw [step_of_nextWrite h]
  exact present_stores (s := s.wrote 1 v es) h.1 v

theorem resetWith_status (c : Config) : (State.resetWith c).status = 0x00 := by
  simp [State.status, State.busy, State.resetWith]

/-- Settles O12, bit by bit from the concatenation that STATUS is. -/
theorem statusRegister : Obligations.StatusRegister :=
  ⟨fun s _ h => ⟨s.status, step_of_nextRead h, status_bits s⟩, fun _ _ _ h => step_of_nextWrite h, resetWith_status⟩

/-- Settles O13: a FRAME read spends a draw exactly while OK = 0. -/
theorem frameReadIsFreeWhileNotOk : Obligations.FrameReadIsFreeWhileNotOk := by
  refine ⟨fun s i es h hok => ?_, fun s i es h hok => ?_, fun s i v es h => ?_⟩
  · rw [step_of_nextRead h, regAt_frame]
    simp [readReg, readValue, readDraws, hok, State.logAccess, State.gaveBack]
  · rw [step_of_nextRead h, regAt_frame]
    simp [readReg, readValue, readDraws, hok, State.logAccess, State.gaveBack]
  · rw [step_of_nextWrite h, regAt_frame]
    rfl

/-- Settles O22: each value is the one `State.resetWith` gives the element. -/
theorem resetValues : Obligations.ResetValues := by
  intro c
  refine ⟨rfl, rfl, resetWith_status c, rfl, rfl, rfl, rfl, rfl, fun _ => rfl, rfl, rfl, rfl, rfl, rfl, rfl, rfl, rfl, fun i => ?_,
    rfl, rfl, rfl, rfl⟩
  simp [State.resetWith]

/-! ### What a step does -/

/-- `u` differs from `s` at most in what the host's accesses touch: its two bytes, the error bits, the schedule, the draw counter
and the recorded accesses. -/
def AccessOnly (s u : State) : Prop :=
  u = { s with
    cmdl := u.cmdl, cmdh := u.cmdh, ill := u.ill, ovr := u.ovr, schedule := u.schedule, draws := u.draws, accesses := u.accesses }

section
variable {s u : State}

theorem AccessOnly.seq (h : AccessOnly s u) : u.seq = s.seq := by rw [h]
theorem AccessOnly.cfg (h : AccessOnly s u) : u.cfg = s.cfg := by rw [h]
theorem AccessOnly.ok (h : AccessOnly s u) : u.ok = s.ok := by rw [h]
theorem AccessOnly.initd (h : AccessOnly s u) : u.initd = s.initd := by rw [h]
theorem AccessOnly.pinTrace (h : AccessOnly s u) : u.pinTrace = s.pinTrace := by rw [h]

end

/-- What a step that answers `u` did (00_scope R5, 30_encoding R49). -/
inductive StepEffect (s u : State) : Prop
  | tick (es : List Event) (hs : s.schedule = [] ∧ es = [] ∨ s.schedule = .tick :: es)
      (hu : u = Machine.tick { s with schedule := es })
  | reset (es : List Event) (hs : s.schedule = .reset :: es) (hu : u = resetNow { s with schedule := es })
  | access (hu : AccessOnly s u) (hill : u.ill = s.ill) (hovr : u.ovr = s.ovr)
  | overrun (v : Byte) (es : List Event) (hs : s.schedule = .write (s.cfg.baseAddr + 1) 1 v :: es) (hb : s.busy = true)
      (hu : u = { s.wrote 1 v es with cmdh := v, ovr := true })
  | illegal (v : Byte) (es : List Event) (hs : s.schedule = .write (s.cfg.baseAddr + 1) 1 v :: es) (hb : s.busy = false)
      (hd : ∃ why, decode (wordOf v s.cmdl) = .illegal why) (hu : u = { s.wrote 1 v es with cmdh := v, ill := true })
  | accept (v : Byte) (es : List Event) (i : Instr) (hs : s.schedule = .write (s.cfg.baseAddr + 1) 1 v :: es)
      (hb : s.busy = false) (hd : decode (wordOf v s.cmdl) = .instr i)
      (hu : u = State.accept i.op (encode i) (procedureOf s.cfg i) { s.wrote 1 v es with cmdh := v })

/-- Only offset 1 of the window presents a command. -/
theorem writeReg_cases {off : Nat} (hoff : off < 16) {v : Byte} {s u : State} (h : writeReg (regAt off) v s = .next u) :
    (off = 1 ∧ present v s = .next u) ∨ (AccessOnly s u ∧ u.ill = s.ill ∧ u.ovr = s.ovr) := by
  by_cases h1 : off = 1
  · subst h1; exact .inl ⟨rfl, h⟩
  · refine .inr ?_
    have hr : regAt off ≠ .cmdh := by
      have all : ∀ off : Fin 16, off.val ≠ 1 → regAt off ≠ .cmdh := by decide
      exact all ⟨off, hoff⟩ h1
    cases hreg : regAt off with
    | cmdh => exact absurd hreg hr
    | _ => rw [hreg] at h; cases h; exact ⟨rfl, rfl, rfl⟩

/-- Everything a step that answers a next state can have done. -/
theorem step_effect {s u : State} (h : step s = .next u) : s.cfg.Valid ∧ StepEffect s u := by
  obtain ⟨hv, ⟨es, hs, hu⟩ | ⟨off, es, -, -, rfl⟩ | ⟨off, v, es, hoff, hs, hw⟩ | ⟨es, -, rfl⟩ | ⟨es, hs, hu⟩⟩ := step_cases h
    <;> refine ⟨hv, ?_⟩
  · exact .tick es hs hu
  · exact .access rfl rfl rfl
  · obtain ⟨rfl, hp⟩ | ⟨ha, hill, hovr⟩ := writeReg_cases hoff hw
    · obtain ⟨hb, h⟩ | ⟨hb, why, hd, h⟩ | ⟨hb, i, hd, h⟩ := present_cases v (s.wrote 1 v es)
      · exact .overrun v es hs hb (Host.Outcome.next.inj (hp.symm.trans h))
      · exact .illegal v es hs hb ⟨why, hd⟩ (Host.Outcome.next.inj (hp.symm.trans h))
      · exact .accept v es i hs hb hd (Host.Outcome.next.inj (hp.symm.trans h))
    · exact .access ha hill hovr
  · cases hb : State.busy { s with schedule := es } with
    | true => rw [pollStatus_busy hb]; exact .access rfl rfl rfl
    | false => rw [pollStatus_idle hb]; exact .access rfl rfl rfl
  · exact .reset es hs hu

@[simp] theorem tick_cmdl (s : State) : (tick s).cmdl = s.cmdl := tick_keeps perform_cmdl (fun _ _ _ _ => rfl) passTick_cmdl s
@[simp] theorem tick_cmdh (s : State) : (tick s).cmdh = s.cmdh := tick_keeps perform_cmdh (fun _ _ _ _ => rfl) passTick_cmdh s
@[simp] theorem tick_ir (s : State) : (tick s).ir = s.ir := tick_keeps perform_ir (fun _ _ _ _ => rfl) passTick_ir s
@[simp] theorem tick_sOut (s : State) : (tick s).sOut = s.sOut := tick_keeps perform_sOut (fun _ _ _ _ => rfl) passTick_sOut s
@[simp] theorem tick_accesses (s : State) : (tick s).accesses = s.accesses :=
  tick_keeps perform_accesses (fun _ _ _ _ => rfl) passTick_accesses s
@[simp] theorem tick_ill (s : State) : (tick s).ill = s.ill := tick_keeps perform_ill (fun _ _ _ _ => rfl) passTick_ill s
@[simp] theorem tick_ovr (s : State) : (tick s).ovr = s.ovr := tick_keeps perform_ovr (fun _ _ _ _ => rfl) passTick_ovr s

@[simp] theorem accept_ill (op : Op) (w : Word) (proc : List Stmt) (s : State) : (s.accept op w proc).ill = s.ill := by
  simp [State.accept]

@[simp] theorem accept_ovr (op : Op) (w : Word) (proc : List Stmt) (s : State) : (s.accept op w proc).ovr = s.ovr := by
  simp [State.accept]

/-- Settles O52: of all steps, only a reset clears an error bit and only a presented word sets one. -/
theorem errorBitsAreSticky : Obligations.ErrorBitsAreSticky := by
  intro s u h
  obtain ⟨-, heff⟩ := step_effect h
  cases heff with
  | tick es hs hu => simp +contextual [hu]
  | reset es hs hu => simp [hs, hu, resetNow, State.resetWith]
  | access hu hill hovr => simp +contextual [hill, hovr]
  | overrun v es hs hb hu => simp +contextual [hu, hb, hs, State.wrote]
  | illegal v es hs hb hd hu => simp +contextual [hu, hb, hs, hd, State.wrote]
  | accept v es i hs hb hd hu => simp +contextual [hu, State.wrote]

/-- Settles O53: on a busy block a host access is an access only, at most with OVR set. -/
theorem runningOperationUndisturbed : Obligations.RunningOperationUndisturbed := by
  intro s u e es hbusy hsched hnt hnr h
  obtain ⟨-, heff⟩ := step_effect h
  cases heff with
  | tick es' hs hu => simp_all
  | reset es' hs hu => simp_all
  | access hu hill hovr => rw [AccessOnly, hill] at hu; exact hu
  | overrun v es' hs hb hu => rw [hu]; rfl
  | illegal v es' hs hb hd hu => simp [hbusy] at hb
  | accept v es' i hs hb hd hu => simp [hbusy] at hb

end Sys2Proof.Machine

/-!
What the procedures are made of (40_sensorlink R64, 41_displaylink R70 to R78): `Allowed` says of each statement of a procedure
what the invariant of the steps needs of it, and it is inherited by every point of the procedure.
-/

namespace Sys2Proof.Machine

/-! ### What a procedure is made of -/

/-- Whether a statement samples the line. -/
def Stmt.isSample : Stmt → Bool
  | .sample _ _ _ => true
  | _ => false

/-- Whether the next statement samples the line. -/
def startsWait (k : List Stmt) : Bool := k.head?.any Stmt.isSample

@[simp] theorem startsWait_nil : startsWait [] = false := rfl
@[simp] theorem startsWait_cons (st : Stmt) (k : List Stmt) : startsWait (st :: k) = st.isSample := rfl

/-- Whether a statement writes a pin register or the latch log. -/
def Stmt.setsPins : Stmt → Bool
  | .setSDir _ | .setDOe _ | .setRs _ | .setDb _ | .setEn _ | .emitLatch _ => true
  | _ => false

/-- What a statement of the operation `op` may be when `rest` of the procedure comes after it: SREAD's are the sensor's, the
others' the display's, only DINIT's write INITD and D_OE; the sensor line is released once, before the first sample; a result
is the last statement. -/
def StmtAllowed (c : Config) (op : Op) (rest : List Stmt) : Stmt → Prop
  | .clearOk | .clearResult | .clearAcc | .clearWcnt => op = .sread
  | .setSDir d => op = .sread ∧ d = rest.contains (.setSDir false)
  | .sample _ _ _ => op = .sread ∧ rest.contains (.setSDir false) = false
  | .shiftBit i => op = .sread ∧ i < c.frameBits
  | .validate => op = .sread ∧ rest = []
  | .setInitd v => op = .dinit ∧ (v = true → rest = [])
  | .setDOe v => op = .dinit ∧ v = true
  | .setRs _ | .setDb _ | .setEn _ | .emitLatch _ => op ≠ .sread
  | .repeatTick _ => True

/-- Every statement is allowed where it stands; a wait begins with its WCNT cleared; no pin moves after the last tick. -/
def Allowed (c : Config) (op : Op) : List Stmt → Prop
  | [] => True
  | st :: rest => StmtAllowed c op rest st ∧ (startsWait rest = true → st = .clearWcnt) ∧
      (st.setsPins = true → pending rest ≠ []) ∧ Allowed c op rest

theorem Allowed.rest {c : Config} {op : Op} {st : Stmt} {k : List Stmt} (h : Allowed c op (st :: k)) : Allowed c op k :=
  h.2.2.2

theorem allowed_repeatTick {c : Config} {op : Op} {n : Nat} {k : List Stmt} :
    Allowed c op (.repeatTick n :: k) ↔ startsWait k = false ∧ Allowed c op k := by
  simp [Allowed, StmtAllowed, Stmt.setsPins]

/-- A point of a procedure is as its procedure is. -/
theorem PointOf.allowed {c : Config} {op : Op} {p k : List Stmt} (h : PointOf p k) (hp : Allowed c op p) : Allowed c op k := by
  obtain ⟨before, after, rfl, hk⟩ := h
  have ha : Allowed c op after := by
    induction before with
    | nil => exact hp
    | cons st before ih => exact ih hp.rest
  obtain rfl | ⟨n, m, tail, rfl, -, rfl⟩ := hk
  · exact ha
  · rw [allowed_repeatTick] at ha ⊢; exact ha

/-! The display's procedures. -/

theorem startsWait_writeNibble (c : Config) (n : Nibble) (r : List Stmt) : startsWait (writeNibble c n ++ r) = false := rfl

theorem pending_repeatTick_ne {n : Nat} (h : n ≠ 0) (r : List Stmt) : pending (.repeatTick n :: r) ≠ [] := by
  rw [pending_cons_tick (by simpa [Stmt.takesTick] using h)]; simp

theorem allowed_writeNibble {c : Config} (hv : c.Valid) {op : Op} (hop : op ≠ .sread) (n : Nibble) {r : List Stmt}
    (hw : startsWait r = false) (h : Allowed c op r) : Allowed c op (writeNibble c n ++ r) := by
  obtain ⟨-, -, -, hsetup, hhigh, hsettle, -⟩ := hv
  simp [writeNibble, Allowed, StmtAllowed, Stmt.setsPins, Stmt.isSample, pending, Stmt.takesTick, hop, hw, h,
    show c.enSetupTicks ≠ 0 by omega, show c.enHighTicks ≠ 0 by omega, show c.enSettleTicks ≠ 0 by omega]

theorem allowed_writeByte {c : Config} (hv : c.Valid) {op : Op} (hop : op ≠ .sread) (rs : Level) (b : Byte) {r : List Stmt}
    (hw : startsWait r = false) (h : Allowed c op r) : Allowed c op (writeByte c rs b ++ r) := by
  simp only [writeByte, List.cons_append, List.append_assoc]
  refine ⟨hop, by simp [startsWait_writeNibble], fun _ => by rw [writeNibble_pending hv]; simp, ?_⟩
  exact allowed_writeNibble hv hop _ rfl (allowed_writeNibble hv hop _ hw h)

theorem startsWait_writeBytes (c : Config) (rs : Level) (bs : List Byte) {r : List Stmt} (hw : startsWait r = false) :
    startsWait (writeBytes c rs bs ++ r) = false := by
  cases bs with
  | nil => exact hw
  | cons b bs => rfl

theorem allowed_writeBytes {c : Config} (hv : c.Valid) {op : Op} (hop : op ≠ .sread) (rs : Level) (bs : List Byte)
    {r : List Stmt} (hw : startsWait r = false) (h : Allowed c op r) : Allowed c op (writeBytes c rs bs ++ r) := by
  induction bs with
  | nil => exact h
  | cons b bs ih =>
    rw [writeBytes, List.append_assoc]
    exact allowed_writeByte hv hop rs b (startsWait_writeBytes c rs bs hw) ih

theorem allowed_clearProc {c : Config} (hv : c.Valid) {op : Op} (hop : op ≠ .sread) {r : List Stmt}
    (hw : startsWait r = false) (h : Allowed c op r) : Allowed c op (clearProc c ++ r) := by
  rw [clearProc, List.append_assoc]
  exact allowed_writeByte hv hop _ _ rfl (allowed_repeatTick.mpr ⟨hw, h⟩)

theorem allowed_dinitProc {c : Config} (hv : c.Valid) : Allowed c .dinit (dinitProc c) := by
  have hop : Op.dinit ≠ .sread := by decide
  have hlast : Allowed c .dinit [.setInitd true] := by simp [Allowed, StmtAllowed, Stmt.setsPins]
  have hnibble : ∀ n w {r}, startsWait r = false → Allowed c .dinit r →
      Allowed c .dinit (writeNibble c n ++ (.repeatTick w :: r)) :=
    fun n w _ hw h => allowed_writeNibble hv hop n rfl (allowed_repeatTick.mpr ⟨hw, h⟩)
  have hbody := allowed_writeBytes hv hop false c.initTail (r := clearProc c ++ [.setInitd true]) rfl
    (allowed_clearProc hv hop rfl hlast)
  have hpins := hnibble c.funcsetNibble c.initWait1Ticks rfl (hnibble c.funcsetNibble c.initWait2Ticks rfl
    (hnibble c.funcsetNibble c.initWait3Ticks rfl (hnibble c.mode4Nibble c.initWait4Ticks
      (startsWait_writeBytes c false c.initTail rfl) hbody)))
  have hticks : ∀ n w r, pending (.repeatTick w :: (writeNibble c n ++ r)) ≠ [] := fun n w r => by
    by_cases hz : w = 0
    · rw [hz, pending_cons_due rfl, writeNibble_pending hv]; simp
    · exact pending_repeatTick_ne hz _
  simp only [dinitProc, List.cons_append, List.append_assoc, List.nil_append]
  refine ⟨⟨rfl, by simp⟩, by simp [Stmt.isSample], by simp [Stmt.setsPins], ⟨rfl, rfl⟩, by simp [Stmt.isSample], fun _ => ?_, hop,
    by simp [Stmt.isSample], fun _ => hticks _ _ _, allowed_repeatTick.mpr ⟨rfl, hpins⟩⟩
  rw [pending_cons_due rfl]; exact hticks _ _ _

/-! SREAD's procedure. -/

theorem contains_readBits (n i : Nat) (d : Bool) : (readBits n i ++ [Stmt.validate]).contains (.setSDir d) = false := by
  induction n generalizing i with
  | zero => rfl
  | succ n ih => simpa [readBits, readBit, waitLevel] using ih (i + 1)

theorem startsWait_readBits (n i : Nat) : startsWait (readBits n i ++ [.validate]) = false := by
  cases n <;> rfl

theorem allowed_readBits {c : Config} (n i : Nat) (h : i + n ≤ c.frameBits) :
    Allowed c .sread (readBits n i ++ [.validate]) := by
  induction n generalizing i with
  | zero => simp [readBits, Allowed, StmtAllowed, Stmt.setsPins]
  | succ n ih =>
    have hi : i < c.frameBits := by omega
    have hnext := ih (i + 1) (by omega)
    have hc := contains_readBits n (i + 1) false
    simp only [List.contains_eq_mem, decide_eq_false_iff_not] at hc
    simp [readBits, readBit, waitLevel, Allowed, StmtAllowed, Stmt.setsPins, Stmt.isSample, hi, hnext, hc, startsWait_readBits]

/-- An accepted SREAD begins with its start pulse, and then releases the line (40_sensorlink R64). -/
theorem sreadProc_pending {c : Config} (hv : c.Valid) :
    ∃ r, pending (sreadProc c) = .repeatTick c.startTicks :: .setSDir false :: r := by
  have hstart : c.startTicks ≠ 0 := by have := hv.1; omega
  simp [sreadProc, pending, Stmt.takesTick, hstart]

theorem allowed_sreadProc {c : Config} (hv : c.Valid) : Allowed c .sread (sreadProc c) := by
  have hbits := allowed_readBits (c := c) c.frameBits 0 (by omega)
  have hc := contains_readBits c.frameBits 0 false
  simp only [List.contains_eq_mem, decide_eq_false_iff_not] at hc
  have hstart : c.startTicks ≠ 0 := by have := hv.1; omega
  simp [sreadProc, waitLevel, Allowed, StmtAllowed, Stmt.setsPins, Stmt.isSample, pending, Stmt.takesTick, hbits, hc,
    startsWait_readBits, hstart]

theorem allowed_procedureOf {c : Config} (hv : c.Valid) (i : Instr) : Allowed c i.op (procedureOf c i) := by
  have byte {op : Op} (hop : op ≠ .sread) (rs : Level) (b : Byte) : Allowed c op (writeByte c rs b) := by
    simpa using allowed_writeByte hv hop rs b (r := []) rfl trivial
  cases i with
  | sread => exact allowed_sreadProc hv
  | dinit => exact allowed_dinitProc hv
  | dcmd b => exact byte (by simp [Instr.op]) _ _
  | ddata b => exact byte (by simp [Instr.op]) _ _
  | dclear => simpa [Instr.op, procedureOf] using allowed_clearProc hv (op := .dclear) (by decide) (r := []) rfl trivial
  | dsetcur col row => exact byte (by simp [Instr.op]) _ _
  | dclrrow row =>
    have hop : (Instr.dclrrow row).op ≠ .sread := by simp [Instr.op]
    rw [procedureOf, clrrowProc, List.append_assoc]
    exact allowed_writeByte hv hop _ _ (startsWait_writeBytes _ _ _ rfl)
      (allowed_writeBytes hv hop _ _ rfl (byte hop _ _))

end Sys2Proof.Machine

/-!
The enable discipline and the latch log (41_displaylink R68, R70): the statements before a tick make the latch event which that
tick then shows, and no other.
-/

namespace Sys2Proof.Machine

/-! ### The discipline of the procedures -/

theorem enableDiscipline_writeNibble {c : Config} (hv : c.Valid) (n db : Nibble) (r : List Stmt) :
    enableDiscipline false db (writeNibble c n ++ r) = enableDiscipline false n r := by
  obtain ⟨-, -, -, -, hhigh, hsettle, -⟩ := hv
  have hticks : (c.enHighTicks != 0) = true ∧ (c.enSettleTicks != 0) = true := by simp only [bne_iff_ne]; omega
  simp [writeNibble, enableDiscipline, Stmt.takesTick, hticks.1, hticks.2]

theorem enableDiscipline_writeByte {c : Config} (hv : c.Valid) (rs : Level) (b : Byte) (db : Nibble) (r : List Stmt) :
    enableDiscipline false db (writeByte c rs b ++ r) = enableDiscipline false (lowNibble b) r := by
  simp [writeByte, enableDiscipline, enableDiscipline_writeNibble hv]

theorem enableDiscipline_writeBytes {c : Config} (hv : c.Valid) (rs : Level) (bs : List Byte) {r : List Stmt}
    (h : ∀ db, enableDiscipline false db r = true) (db : Nibble) : enableDiscipline false db (writeBytes c rs bs ++ r) = true := by
  induction bs generalizing db with
  | nil => exact h db
  | cons b bs ih =>
    rw [writeBytes, List.append_assoc, enableDiscipline_writeByte hv]
    exact ih _

theorem enableDiscipline_readBits (en : Level) (db : Nibble) (n i : Nat) (r : List Stmt) :
    enableDiscipline en db (readBits n i ++ r) = enableDiscipline en db r := by
  induction n generalizing i with
  | zero => rfl
  | succ n ih => simp [readBits, readBit, waitLevel, enableDiscipline, ih]

/-- Every procedure keeps the enable discipline, from EN low (41_displaylink R70). -/
theorem enableDiscipline_procedureOf {c : Config} (hv : c.Valid) (i : Instr) (db : Nibble) :
    enableDiscipline false db (procedureOf c i) = true := by
  have byte (rs : Level) (b : Byte) (db : Nibble) : enableDiscipline false db (writeByte c rs b) = true := by
    simpa [enableDiscipline] using enableDiscipline_writeByte hv rs b db []
  cases i with
  | sread => simp [procedureOf, sreadProc, waitLevel, enableDiscipline, enableDiscipline_readBits]
  | dinit =>
    have hclear (db : Nibble) : enableDiscipline false db (clearProc c ++ [.setInitd true]) = true := by
      simp [clearProc, enableDiscipline_writeByte hv, enableDiscipline]
    simp [procedureOf, dinitProc, enableDiscipline, enableDiscipline_writeNibble hv, enableDiscipline_writeBytes hv _ _ hclear]
  | dcmd b => exact byte _ _ _
  | ddata b => exact byte _ _ _
  | dclear => simp [procedureOf, clearProc, enableDiscipline_writeByte hv, enableDiscipline]
  | dsetcur col row => exact byte _ _ _
  | dclrrow row =>
    rw [procedureOf, clrrowProc, List.append_assoc, enableDiscipline_writeByte hv]
    exact enableDiscipline_writeBytes hv _ _ (byte _ _) _

/-! ### The latch log across a tick -/

/-- `State.LatchLegal` with `k` for the statements still to run. -/
def State.LatchAt (s : State) (k : List Stmt) : Prop :=
  s.latchLog.filter LogEntry.isLatch = latchEvents s.pinTrace ∧
  enableDiscipline s.dEn s.dDb k = true ∧
  (∀ p ∈ s.pinTrace, 1 ≤ p.t) ∧
  (s.dEn = true → s.lastBus = s.bus) ∧
  (s.dEn = false → ∀ b, s.lastBus = some b → b.en = false)

theorem latchLegal_iff (s : State) : s.LatchLegal ↔ s.LatchAt s.seq.rest := Iff.rfl

/-- The latch event between the last recorded bus and the bus of tick `t`. -/
def latchStep (t : Nat) : Option BusLevels → Option BusLevels → List LogEntry
  | some a, some b => if a.en = true ∧ b.en = false then [.latch t a.rs a.db] else []
  | _, _ => []

theorem latchEvents_passTick (s : State) :
    latchEvents s.passTick.pinTrace = latchEvents s.pinTrace ++ latchStep (s.t + 1) s.lastBus s.bus := by
  rw [passTick_pinTrace, latchEvents_append, State.lastBus]
  cases s.pinTrace.getLast? with
  | none => rfl
  | some p =>
    by_cases hp : p.t = s.t <;> cases hb : p.bus <;> cases hq : s.bus <;> simp [latchBetween, latchStep, hp, hb]

@[simp] theorem lastBus_passTick (s : State) : s.passTick.lastBus = s.bus := by
  simp [State.lastBus]

@[simp] theorem bus_passTick (s : State) : s.passTick.bus = s.bus := rfl

@[simp] theorem lastBus_runDue (k : List Stmt) (s : State) : (runDue k s).lastBus = s.lastBus := by
  simp [State.lastBus]

theorem bus_en {s : State} {b : BusLevels} (h : s.bus = some b) : b.en = s.dEn := by
  unfold State.bus at h
  split at h <;> cases h
  rfl

theorem runDue_of_head_takesTick {k : List Stmt} (h : k.head?.any Stmt.takesTick = true) (s : State) :
    runDue k s = s ∧ pending k = k ∧ k ≠ [] := by
  cases k with
  | nil => simp at h
  | cons st k =>
    have ht : st.takesTick = true := by simpa using h
    exact ⟨runDue_cons_tick ht k s, pending_cons_tick ht k, by simp⟩

/-- With EN low, a statement that does not raise it makes no latch event. -/
theorem perform_enLow {st : Stmt} {k : List Stmt} {s : State} (ht : st.takesTick = false) (hst : st ≠ .setEn true)
    (hen : s.dEn = false) (h : enableDiscipline s.dEn s.dDb (st :: k) = true) :
    (perform st s).dEn = false ∧ (perform st s).latchLog = s.latchLog ∧
      enableDiscipline (perform st s).dEn (perform st s).dDb k = true := by
  cases st with
  | setEn v => cases v <;> simp_all [perform, enableDiscipline]
  | _ => simp_all [perform, enableDiscipline, Stmt.takesTick]

/-- With EN low, the statements before the next tick make no latch event. -/
theorem runDue_enLow {k : List Stmt} {s : State} (hen : s.dEn = false) (h : enableDiscipline s.dEn s.dDb k = true) :
    (runDue k s).latchLog = s.latchLog ∧
      enableDiscipline (runDue k s).dEn (runDue k s).dDb (pending k) = true := by
  induction k generalizing s with
  | nil => exact ⟨rfl, h⟩
  | cons st k ih =>
    cases ht : st.takesTick with
    | true => rw [runDue_cons_tick ht, pending_cons_tick ht]; exact ⟨rfl, h⟩
    | false =>
      rw [runDue_cons_due ht, pending_cons_due ht]
      by_cases hst : st = .setEn true
      · subst hst
        simp only [enableDiscipline, Bool.and_eq_true] at h
        obtain ⟨hrun, hpend, -⟩ := runDue_of_head_takesTick h.1 (perform (.setEn true) s)
        rw [hrun, hpend]
        exact ⟨rfl, h.2⟩
      · obtain ⟨hen', hlog, hd⟩ := perform_enLow ht hst hen h
        rw [← hlog]
        exact ih hen' hd

/-- With EN high, a statement that does not write it leaves the bus and the latch log alone. -/
theorem perform_enHigh {st : Stmt} {k : List Stmt} {s : State} (ht : st.takesTick = false) (hst : ∀ v, st ≠ .setEn v)
    (hen : s.dEn = true) (h : enableDiscipline s.dEn s.dDb (st :: k) = true) :
    (perform st s).dEn = true ∧ (perform st s).latchLog = s.latchLog ∧ (perform st s).dOe = s.dOe ∧
      (perform st s).dDb = s.dDb ∧ (perform st s).dRs = s.dRs ∧
      enableDiscipline (perform st s).dEn (perform st s).dDb k = true := by
  cases st with
  | setEn v => exact absurd rfl (hst v)
  | _ => simp_all [perform, enableDiscipline, Stmt.takesTick]

/-- While EN is high it falls only with the latch event of the nibble on the data lines, into a tick. -/
theorem enableDiscipline_fall {db : Nibble} {k : List Stmt} (h : enableDiscipline true db (.setEn false :: k) = true) :
    ∃ rest, k = .emitLatch db :: rest ∧ rest.head?.any Stmt.takesTick = true ∧ enableDiscipline false db rest = true := by
  unfold enableDiscipline at h
  split at h <;> simp_all

/-- With EN high, the statements before the next tick leave the bus as it is, or let EN fall into that tick with the one latch
event of the nibble on the bus. -/
theorem runDue_enHigh {k : List Stmt} {s : State} (hen : s.dEn = true) (h : enableDiscipline s.dEn s.dDb k = true) :
    (runDue k s).dOe = s.dOe ∧ (runDue k s).dDb = s.dDb ∧ (runDue k s).dRs = s.dRs ∧
      enableDiscipline (runDue k s).dEn (runDue k s).dDb (pending k) = true ∧
      ((runDue k s).dEn = true ∧ (runDue k s).latchLog = s.latchLog ∨
        pending k ≠ [] ∧ (runDue k s).dEn = false ∧
          (runDue k s).latchLog = s.latchLog ++ drivenOnly s.dOe [.latch (s.t + 1) s.dRs s.dDb]) := by
  induction k generalizing s with
  | nil => exact ⟨rfl, rfl, rfl, h, .inl ⟨hen, rfl⟩⟩
  | cons st k ih =>
    cases ht : st.takesTick with
    | true => rw [runDue_cons_tick ht, pending_cons_tick ht]; exact ⟨rfl, rfl, rfl, h, .inl ⟨hen, rfl⟩⟩
    | false =>
      rw [runDue_cons_due ht, pending_cons_due ht]
      by_cases hst : ∃ v, st = .setEn v
      · obtain ⟨v, rfl⟩ := hst
        cases v with
        | true =>
          simp only [enableDiscipline, Bool.and_eq_true] at h
          obtain ⟨hrun, hpend, -⟩ := runDue_of_head_takesTick h.1 (perform (.setEn true) s)
          rw [hrun, hpend]
          exact ⟨rfl, rfl, rfl, h.2, .inl ⟨rfl, rfl⟩⟩
        | false =>
          rw [hen] at h
          obtain ⟨rest, rfl, hhead, hd⟩ := enableDiscipline_fall h
          obtain ⟨hrun, hpend, hne⟩ := runDue_of_head_takesTick hhead (perform (.emitLatch s.dDb) (perform (.setEn false) s))
          rw [runDue_cons_due rfl, pending_cons_due rfl, hrun, hpend]
          exact ⟨rfl, rfl, rfl, hd, .inr ⟨hne, rfl, rfl⟩⟩
      · obtain ⟨hen', hlog, hoe, hdb, hrs, hd⟩ := perform_enHigh ht (by simpa using hst) hen h
        have := ih hen' hd
        rwa [hlog, hoe, hdb, hrs, perform_t] at this

/-- The tick after the due statements shows exactly the latch event they logged. -/
theorem latchLog_runDue {k : List Stmt} {s : State} (h : s.LatchAt k) :
    (runDue k s).latchLog = s.latchLog ++ latchStep (s.t + 1) s.lastBus (runDue k s).bus := by
  obtain ⟨-, hd, -, hhigh, hlow⟩ := h
  cases hen : s.dEn with
  | false =>
    rw [(runDue_enLow hen hd).1]
    cases hb : s.lastBus with
    | none => simp [latchStep]
    | some b => cases hq : (runDue k s).bus <;> simp [latchStep, hlow hen b hb]
  | true =>
    obtain ⟨hoe, hdb, hrs, -, hstay | hfall⟩ := runDue_enHigh hen hd
    · rw [hhigh hen, hstay.2]
      cases hdrive : s.dOe <;> simp [State.bus, hoe, hdrive, latchStep, hstay.1]
    · obtain ⟨-, hen', hlog⟩ := hfall
      rw [hhigh hen, hlog]
      cases hdrive : s.dOe <;> simp [State.bus, hoe, hdrive, latchStep, hen, hen']

theorem enableDiscipline_runDue {k : List Stmt} {s : State} (h : enableDiscipline s.dEn s.dDb k = true) :
    enableDiscipline (runDue k s).dEn (runDue k s).dDb (pending k) = true := by
  cases hen : s.dEn with
  | false => exact (runDue_enLow hen h).2
  | true =>
    obtain ⟨-, -, -, hd, -⟩ := runDue_enHigh hen h
    exact hd

/-- A tick keeps the latch log in step with the pins. -/
theorem State.LatchAt.passTick {s : State} {k : List Stmt} (h : s.LatchAt k) :
    (runDue k s).passTick.LatchAt (pending k) := by
  have hlog := latchLog_runDue h
  obtain ⟨hevents, hd, ht, -, -⟩ := h
  refine ⟨?_, enableDiscipline_runDue hd, ?_, fun _ => by simp, fun hen b hb => ?_⟩
  · rw [latchEvents_passTick, passTick_latchLog, hlog, lastBus_runDue, runDue_t, runDue_pinTrace, List.filter_append, hevents]
    congr 1
    unfold latchStep
    split
    · split <;> rfl
    · rfl
  · rw [passTick_pinTrace, runDue_pinTrace]
    simp only [List.mem_append, List.mem_singleton]
    rintro p (hp | rfl)
    · exact ht p hp
    · simp
  · rw [lastBus_passTick] at hb
    rw [bus_en hb]; exact hen

/-- Ending without a tick leaves EN low and the latch log alone. -/
theorem State.LatchAt.finish {s : State} {k : List Stmt} (h : s.LatchAt k) (hp : pending k = []) : (runDue k s).LatchAt [] := by
  obtain ⟨hevents, hd, ht, -, hlow⟩ := h
  have hend := enableDiscipline_runDue hd
  rw [hp] at hend
  have hen' : (runDue k s).dEn = false := by simpa [enableDiscipline] using hend
  cases hen : s.dEn with
  | true =>
    obtain ⟨-, -, -, -, hstay | hfall⟩ := runDue_enHigh hen hd
    · simp [hen'] at hstay
    · exact absurd hp hfall.1
  | false =>
    refine ⟨?_, hend, by simpa using ht, by simp [hen'], fun _ => by simpa using hlow hen⟩
    rw [(runDue_enLow hen hd).1, hevents, runDue_pinTrace]

theorem latchAt_repeatTick {s : State} {n : Nat} {k : List Stmt} : s.LatchAt (.repeatTick n :: k) ↔ s.LatchAt k := by
  simp [State.LatchAt, enableDiscipline]

theorem latchAt_sample {s : State} {level : Level} {stage : Stage} {i : Nat} {k : List Stmt} :
    s.LatchAt (.sample level stage i :: k) ↔ s.LatchAt k := by
  simp [State.LatchAt, enableDiscipline]

theorem State.LatchAt.countDown {s : State} {n : Nat} {k : List Stmt} (h : s.LatchAt (.repeatTick n :: k)) :
    s.LatchAt (countDown n k) := by
  unfold Machine.countDown
  split
  · exact latchAt_repeatTick.mp h
  · exact latchAt_repeatTick.mpr (latchAt_repeatTick.mp h)

end Sys2Proof.Machine

/-!
The invariant of the steps (10_state R20 to R30): `State.Underway` says of an operation between two of its statements what
`State.RegsLegal` says of it between two ticks, each statement keeps it, and `TickEffect` reads the ways of a tick off it.
-/

namespace Sys2Proof.Machine

/-! ### An operation under way -/

/-- What the registers say between two statements of the operation `op` when `k` of its procedure is left: `State.RegsLegal` of a
running operation, and, once `k` is empty, of the idle block. -/
structure State.Underway (s : State) (op : Op) (k : List Stmt) : Prop where
  valid : s.cfg.Valid
  allowed : Allowed s.cfg op k
  sOut_low : s.sOut = false
  display_sDir : op ≠ .sread → s.sDir = false
  sread_sDir : op = .sread → s.sDir = k.contains (.setSDir false)
  sread_dEn : op = .sread → s.dEn = false
  sread_result : op = .sread → k ≠ [] → s.ok = false ∧ s.lastResult = .none
  sread_frame : op = .sread → s.ok = true → s.frame = s.acc
  dinit_dOe : op = .dinit → s.dOe = true
  dinit_initd : op = .dinit → k ≠ [] → s.initd = false
  ok_iff : s.ok = true ↔ s.lastResult = .okFrame
  ok_frame : s.ok = true → checksumValid s.frame = true
  initd_dOe : s.initd = true → s.dOe = true
  bitI_le : s.bitI ≤ s.cfg.frameBits
  wcnt_le : s.wcnt ≤ s.cfg.waitCeil
  wait_open : startsWait k = true → s.wcnt < s.cfg.waitCeil

section
variable {s : State} {op : Op} {k : List Stmt}

theorem isDisplay_iff (op : Op) : op.isDisplay = true ↔ op ≠ .sread := by cases op <;> simp [Op.isDisplay]

theorem startsWait_iff (k : List Stmt) : startsWait k = true ↔ ∃ level stage i rest, k = .sample level stage i :: rest := by
  cases k with
  | nil => simp
  | cons st rest => cases st <;> simp [Stmt.isSample]

/-- A legal state that runs an operation has it under way. -/
theorem State.Underway.of_legal (hs : s.Legal) (hq : s.seq = .running op k) : s.Underway op k := by
  obtain ⟨hv, hseq, hr, -⟩ := hs
  rw [State.SeqLegal, hq] at hseq
  obtain ⟨-, i, -, rfl, -, hpoint⟩ := hseq
  exact {
    valid := hv
    allowed := hpoint.allowed (allowed_procedureOf hv i)
    sOut_low := hr.sOut_low
    display_sDir := fun h => hr.display_sDir _ _ hq ((isDisplay_iff _).mpr h)
    sread_sDir := fun h => hr.sread_sDir k (h ▸ hq)
    sread_dEn := fun h => (hr.sread_result k (h ▸ hq)).2.2
    sread_result := fun h _ => ⟨(hr.sread_result k (h ▸ hq)).1, (hr.sread_result k (h ▸ hq)).2.1⟩
    sread_frame := fun h hok => by simp [(hr.sread_result k (h ▸ hq)).1] at hok
    dinit_dOe := fun h => (hr.dinit_bits k (h ▸ hq)).2
    dinit_initd := fun h _ => (hr.dinit_bits k (h ▸ hq)).1
    ok_iff := hr.ok_iff
    ok_frame := hr.ok_frame
    initd_dOe := hr.initd_dOe
    bitI_le := hr.bitI_le
    wcnt_le := hr.wcnt_le
    wait_open := fun h => by
      obtain ⟨level, stage, i, rest, rfl⟩ := (startsWait_iff k).mp h
      exact hr.wait_open _ _ _ _ _ hq }

/-- Between ticks the registers are legal of the operation still running. -/
theorem State.Underway.regsLegal_running (h : s.Underway op k) (hk : k ≠ []) :
    State.RegsLegal { s with seq := .running op k } where
  sOut_low := h.sOut_low
  idle_pins := nofun
  display_sDir := by rintro _ _ ⟨⟩ hop; exact h.display_sDir ((isDisplay_iff _).mp hop)
  sread_sDir := by rintro _ ⟨⟩; exact h.sread_sDir rfl
  sread_result := by rintro _ ⟨⟩; exact ⟨(h.sread_result rfl hk).1, (h.sread_result rfl hk).2, h.sread_dEn rfl⟩
  dinit_bits := by rintro _ ⟨⟩; exact ⟨h.dinit_initd rfl hk, h.dinit_dOe rfl⟩
  ok_iff := h.ok_iff
  ok_frame := h.ok_frame
  initd_dOe := h.initd_dOe
  bitI_le := h.bitI_le
  wcnt_le := h.wcnt_le
  wait_open := by rintro _ _ _ _ _ ⟨⟩; exact h.wait_open rfl

/-- With nothing left to do the registers are legal of the idle block. -/
theorem State.Underway.regsLegal_idle (h : s.Underway op []) (hen : s.dEn = false) :
    State.RegsLegal { s with seq := .idle } where
  sOut_low := h.sOut_low
  idle_pins := fun _ => ⟨by
    by_cases hop : op = .sread
    · exact h.sread_sDir hop
    · exact h.display_sDir hop, hen⟩
  display_sDir := nofun
  sread_sDir := nofun
  sread_result := nofun
  dinit_bits := nofun
  ok_iff := h.ok_iff
  ok_frame := h.ok_frame
  initd_dOe := h.initd_dOe
  bitI_le := h.bitI_le
  wcnt_le := h.wcnt_le
  wait_open := nofun

/-- Going past a statement that at most moves S_DIR and WCNT. -/
theorem State.Underway.past {st : Stmt} (h : s.Underway op (st :: k)) {d : Bool} {w : Nat}
    (hd : op ≠ .sread → d = false) (hd' : op = .sread → d = k.contains (.setSDir false))
    (hw : w ≤ s.cfg.waitCeil) (hw' : startsWait k = true → w < s.cfg.waitCeil) :
    State.Underway { s with sDir := d, wcnt := w } op k where
  valid := h.valid
  allowed := h.allowed.rest
  sOut_low := h.sOut_low
  display_sDir := hd
  sread_sDir := hd'
  sread_dEn := h.sread_dEn
  sread_result := fun hop _ => h.sread_result hop (by simp)
  sread_frame := h.sread_frame
  dinit_dOe := h.dinit_dOe
  dinit_initd := fun hop _ => h.dinit_initd hop (by simp)
  ok_iff := h.ok_iff
  ok_frame := h.ok_frame
  initd_dOe := h.initd_dOe
  bitI_le := h.bitI_le
  wcnt_le := hw
  wait_open := hw'

/-- Going past a statement that neither clears WCNT for a wait nor releases the line: the other facts need nothing of it. -/
theorem State.Underway.skip {st : Stmt} (h : s.Underway op (st :: k)) (hw : st ≠ .clearWcnt) (hd : st ≠ .setSDir false) :
    s.Underway op k :=
  h.past h.display_sDir (fun hop => by simpa [hd.symm] using h.sread_sDir hop) h.wcnt_le
    fun hs => absurd (h.allowed.2.1 hs) hw

theorem State.Underway.validateFrame (h : s.Underway .sread [.validate]) : s.validateFrame.Underway .sread [] := by
  have hres := h.sread_result rfl (by simp)
  have hend := h.skip (by simp) (by simp)
  unfold State.validateFrame
  split
  next hsum =>
    exact { hend with
      sread_result := fun _ hk => absurd rfl hk
      sread_frame := fun _ _ => rfl
      ok_iff := by simp
      ok_frame := fun _ => hsum }
  · exact { hend with
      sread_result := fun _ hk => absurd rfl hk
      ok_iff := by simp [hres.1] }

/-- Performing a statement goes past it. -/
theorem State.Underway.perform {st : Stmt} (h : s.Underway op (st :: k)) : (perform st s).Underway op k := by
  have hst := h.allowed.1
  cases st with
  | repeatTick n => exact h.skip (by simp) (by simp)
  | sample level stage i => exact h.skip (by simp) (by simp)
  | clearOk =>
    have hres := h.sread_result hst (by simp)
    exact { h.skip (by simp) (by simp) with
      sread_result := fun _ _ => ⟨rfl, hres.2⟩
      sread_frame := nofun
      ok_iff := by simp [Machine.perform, hres.2]
      ok_frame := nofun }
  | clearResult =>
    have hres := h.sread_result hst (by simp)
    exact { h.skip (by simp) (by simp) with
      sread_result := fun _ _ => ⟨hres.1, rfl⟩
      ok_iff := by simp [Machine.perform, hres.1] }
  | clearAcc =>
    have hres := h.sread_result hst (by simp)
    exact { h.skip (by simp) (by simp) with
      sread_frame := fun _ hok => by simp [Machine.perform, hres.1] at hok
      bitI_le := Nat.zero_le _ }
  | setSDir d =>
    have hopen : startsWait k = true → s.wcnt < s.cfg.waitCeil := fun hs => nomatch h.allowed.2.1 hs
    exact h.past (fun hop => absurd hst.1 hop) (fun _ => hst.2) h.wcnt_le hopen
  | clearWcnt =>
    have hceil : 0 < s.cfg.waitCeil := h.valid.2.1
    exact h.past h.display_sDir (fun hop => by simpa using h.sread_sDir hop) (Nat.zero_le _) fun _ => hceil
  | shiftBit i =>
    have hres := h.sread_result hst.1 (by simp)
    exact { h.skip (by simp) (by simp) with
      sread_frame := fun _ hok => by simp [Machine.perform, hres.1] at hok
      bitI_le := hst.2 }
  | validate =>
    obtain ⟨rfl, rfl⟩ := hst
    exact h.validateFrame
  | setInitd v =>
    obtain ⟨rfl, hlast⟩ := hst
    exact { h.skip (by simp) (by simp) with
      dinit_initd := fun _ hk => by simpa [Machine.perform] using mt hlast hk
      initd_dOe := fun _ => h.dinit_dOe rfl }
  | setDOe v =>
    obtain ⟨-, rfl⟩ := hst
    exact { h.skip (by simp) (by simp) with
      dinit_dOe := fun _ => rfl
      initd_dOe := fun _ => rfl }
  | setRs v => exact { h.skip (by simp) (by simp) with }
  | setDb n => exact { h.skip (by simp) (by simp) with }
  | setEn v => exact { h.skip (by simp) (by simp) with sread_dEn := fun hop => absurd hop hst }
  | emitLatch n => exact { h.skip (by simp) (by simp) with }

theorem State.Underway.runDue (h : s.Underway op k) : (runDue k s).Underway op (pending k) := by
  induction k generalizing s with
  | nil => exact h
  | cons st k ih =>
    cases ht : st.takesTick with
    | true => rwa [runDue_cons_tick ht, pending_cons_tick ht]
    | false => rw [runDue_cons_due ht, pending_cons_due ht]; exact ih h.perform

/-! ### What the statements of an operation leave alone -/

theorem runDue_keeps_of {α : Type} {f : State → α} (h : ∀ st ∈ k, ∀ s, f (perform st s) = f s) (s : State) :
    f (Machine.runDue k s) = f s := by
  induction k generalizing s with
  | nil => rfl
  | cons st k ih =>
    unfold Machine.runDue
    split
    · rfl
    · rw [ih (fun x hx => h x (by simp [hx])), h st (by simp)]

theorem Allowed.stmtAllowed {c : Config} {st : Stmt} (h : Allowed c op k) (hst : st ∈ k) : ∃ rest, StmtAllowed c op rest st := by
  induction k with
  | nil => simp at hst
  | cons a k ih =>
    obtain rfl | hst := List.mem_cons.mp hst
    · exact ⟨k, h.1⟩
    · exact ih h.rest hst

/-- A display operation does not touch OK (10_state R21). -/
theorem Allowed.runDue_ok {c : Config} (h : Allowed c op k) (hop : op ≠ .sread) (s : State) : (Machine.runDue k s).ok = s.ok := by
  refine runDue_keeps_of (f := State.ok) (fun st hst s => ?_) s
  obtain ⟨rest, ha⟩ := h.stmtAllowed hst
  cases st <;> simp_all [StmtAllowed, Machine.perform]

/-- Only DINIT touches INITD (10_state R22). -/
theorem Allowed.runDue_initd {c : Config} (h : Allowed c op k) (hop : op ≠ .dinit) (s : State) :
    (Machine.runDue k s).initd = s.initd := by
  refine runDue_keeps_of (f := State.initd) (fun st hst s => ?_) s
  obtain ⟨rest, ha⟩ := h.stmtAllowed hst
  cases st <;> simp_all [StmtAllowed, Machine.perform]

/-- No pin moves after the last tick of an operation. -/
theorem Allowed.not_setsPins {c : Config} {st : Stmt} (h : Allowed c op k) (hp : pending k = []) (hst : st ∈ k) :
    st.setsPins = false := by
  induction k with
  | nil => simp at hst
  | cons a k ih =>
    have ha : a.takesTick = false := by
      by_contra ht
      rw [pending_cons_tick (by simpa using ht)] at hp
      cases hp
    rw [pending_cons_due ha] at hp
    obtain rfl | hst := List.mem_cons.mp hst
    · simpa [hp] using h.2.2.1
    · exact ih h.rest hp hst

theorem perform_pins {st : Stmt} (h : st.setsPins = false) (s : State) :
    (perform st s).sDir = s.sDir ∧ (perform st s).bus = s.bus := by
  cases st with
  | setSDir _ | setDOe _ | setRs _ | setDb _ | setEn _ | emitLatch _ => cases h
  | validate => simp [Machine.perform, State.bus]
  | _ => exact ⟨rfl, rfl⟩

theorem Allowed.runDue_pins {c : Config} (h : Allowed c op k) (hp : pending k = []) (s : State) :
    (Machine.runDue k s).sDir = s.sDir ∧ (Machine.runDue k s).bus = s.bus :=
  ⟨runDue_keeps_of (f := State.sDir) (fun _ hst s => (perform_pins (h.not_setsPins hp hst) s).1) s,
    runDue_keeps_of (f := State.bus) (fun _ hst s => (perform_pins (h.not_setsPins hp hst) s).2) s⟩

theorem Allowed.startsWait_eq_false {c : Config} (h : Allowed c op k) (hop : op ≠ .sread) : startsWait k = false := by
  cases k with
  | nil => rfl
  | cons st k =>
    have := h.1
    cases st <;> simp_all [StmtAllowed, Stmt.isSample]

/-! ### A tick of a legal state -/

/-- `Underway`, with the latch log and the point of the procedure: everything `State.Legal` says of a running operation. -/
structure State.OnTrack (s : State) (op : Op) (k : List Stmt) : Prop extends State.Underway s op k where
  latch : s.LatchAt k
  point : ∃ i : Instr, i.wellFormed = true ∧ i.op = op ∧ s.ir = encode i ∧ PointOf (procedureOf s.cfg i) k

theorem State.Legal.regs (hs : s.Legal) : s.RegsLegal := hs.2.2.1

theorem State.OnTrack.of_legal (hs : s.Legal) (hq : s.seq = .running op k) : s.OnTrack op k := by
  have hu := State.Underway.of_legal hs hq
  obtain ⟨-, hseq, -, hlatch⟩ := hs
  rw [State.SeqLegal, hq] at hseq
  rw [latchLegal_iff, hq] at hlatch
  exact { hu with latch := hlatch, point := hseq.2 }

theorem State.OnTrack.legal_running (h : s.OnTrack op k) (hp : pending k ≠ []) :
    State.Legal { s with seq := .running op k } :=
  ⟨h.valid, ⟨hp, h.point⟩, h.regsLegal_running (by rintro rfl; exact hp rfl), h.latch⟩

theorem State.OnTrack.startTick (h : s.OnTrack op k) : (Machine.runDue k s).passTick.OnTrack op (pending k) := by
  obtain ⟨i, hwf, hop, hir, hpt⟩ := h.point
  exact { h.runDue with
    latch := h.latch.passTick
    point := ⟨i, hwf, hop, by simpa using hir, by simpa using hpt.pending⟩ }

/-- With only statements left that take no tick, the operation ends in a legal idle block. -/
theorem State.OnTrack.legal_idle (h : s.OnTrack op k) (hp : pending k = []) :
    State.Legal { Machine.runDue k s with seq := .idle } := by
  have hu := h.runDue
  rw [hp] at hu
  have hl := h.latch.finish hp
  have hen : (Machine.runDue k s).dEn = false := by simpa [enableDiscipline] using hl.2.1
  exact ⟨hu.valid, trivial, hu.regsLegal_idle hen, hl⟩

/-- The ways a tick of the operation `op`, with `k` of its procedure to run, can go from a legal state. -/
inductive TickEffect (s : State) (op : Op) (k : List Stmt) : Prop
  | goesOn (w : Nat) (k' : List Stmt) (hp : pending k' ≠ [])
      (h : State.OnTrack { (runDue k s).passTick with wcnt := w } op k')
      (hu : tick s = { (runDue k s).passTick with wcnt := w, seq := .running op k' })
  | ends (w : Nat) (k' : List Stmt) (hp : pending k' = [])
      (h : State.OnTrack { (runDue k s).passTick with wcnt := w } op k')
      (hu : tick s = { runDue k' { (runDue k s).passTick with wcnt := w } with seq := .idle })
  | timesOut (w : Nat) (stage : Stage) (i : Nat) (k' : List Stmt) (hop : op = .sread)
      (h : State.OnTrack { (runDue k s).passTick with wcnt := w } op k')
      (hok : (runDue k s).ok = false) (hdir : (runDue k s).sDir = false)
      (hu : tick s = { (runDue k s).passTick with wcnt := w, lastResult := .timeout stage i, seq := .idle })

theorem State.Underway.countDown {n : Nat} (h : s.Underway op (.repeatTick n :: k)) :
    s.Underway op (Machine.countDown n k) := by
  unfold Machine.countDown
  split
  · exact h.skip (by simp) (by simp)
  · exact { h with
      allowed := allowed_repeatTick.mpr (allowed_repeatTick.mp h.allowed)
      sread_sDir := fun hop => by simpa using h.sread_sDir hop
      sread_result := fun hop _ => h.sread_result hop (by simp)
      dinit_initd := fun hop _ => h.dinit_initd hop (by simp)
      wait_open := nofun }

theorem State.OnTrack.countDown {n : Nat} (h : s.OnTrack op (.repeatTick n :: k)) :
    s.OnTrack op (Machine.countDown n k) := by
  obtain ⟨i, hwf, hop, hir, hpt⟩ := h.point
  exact { h.toUnderway.countDown with latch := h.latch.countDown, point := ⟨i, hwf, hop, hir, hpt.countDown⟩ }

/-- A sample is counted, within the ceiling, and the wait left behind. -/
theorem State.OnTrack.sampled {level : Level} {stage : Stage} {i : Nat} (h : s.OnTrack op (.sample level stage i :: k)) :
    State.OnTrack { s with wcnt := s.wcnt + 1 } op k := by
  obtain ⟨j, hwf, hop, hir, hpt⟩ := h.point
  have hpast : State.Underway { s with wcnt := s.wcnt + 1 } op k :=
    h.toUnderway.past h.display_sDir (fun hop => by simpa using h.sread_sDir hop) (h.wait_open rfl)
      fun hs => nomatch h.allowed.2.1 hs
  exact { hpast with latch := latchAt_sample.mp h.latch, point := ⟨j, hwf, hop, hir, hpt.tail⟩ }

/-- A sample is counted and the wait goes on, still short of the ceiling. -/
theorem State.OnTrack.resampled {level : Level} {stage : Stage} {i : Nat} (h : s.OnTrack op (.sample level stage i :: k))
    (hc : s.wcnt + 1 ≠ s.cfg.waitCeil) : State.OnTrack { s with wcnt := s.wcnt + 1 } op (.sample level stage i :: k) := by
  have hopen : s.wcnt + 1 ≤ s.cfg.waitCeil := h.wait_open rfl
  exact { h.toUnderway with
    wcnt_le := hopen
    wait_open := fun _ => Nat.lt_of_le_of_ne hopen hc
    latch := h.latch
    point := h.point }

theorem tickEffect_of_settle {w : Nat} {k' : List Stmt}
    (h : State.OnTrack { (runDue k s).passTick with wcnt := w } op k')
    (hu : tick s = settle op k' { (runDue k s).passTick with wcnt := w }) : TickEffect s op k := by
  by_cases hp : pending k' = []
  · exact .ends w k' hp h (by rw [hu, settle, if_pos hp])
  · exact .goesOn w k' hp h (by rw [hu, settle, if_neg hp])

/-- Everything a tick can do to a legal state that runs an operation. -/
theorem tick_effect (hs : s.Legal) (hq : s.seq = .running op k) : TickEffect s op k := by
  have hstart := (State.OnTrack.of_legal hs hq).startTick
  have hmore : pending k ≠ [] := by
    obtain ⟨-, hseq, -⟩ := hs
    rw [State.SeqLegal, hq] at hseq
    exact hseq.1
  have ht := tick_running hq
  obtain ⟨n, rest, -, hk, h⟩ | ⟨stage, i, rest, hk, h⟩ | ⟨want, stage, i, rest, hk, -, -, h⟩ |
    ⟨want, stage, i, rest, hk, -, hc, h⟩ | ⟨hk, -⟩ := endTick_cases op k (runDue k s).sLine (runDue k s).passTick
  · rw [hk] at hstart
    exact tickEffect_of_settle hstart.countDown (ht.trans h)
  · rw [hk] at hstart
    exact tickEffect_of_settle hstart.sampled (ht.trans h)
  · rw [hk] at hstart
    obtain ⟨hop, hreleased⟩ := hstart.allowed.1
    refine .timesOut _ stage i rest hop hstart.sampled (hstart.sread_result hop (by simp)).1 ?_ (ht.trans h)
    have hdir := hstart.sread_sDir hop
    rw [List.contains_cons, hreleased] at hdir
    exact hdir
  · rw [hk] at hstart
    have hgo := hstart.resampled hc
    rw [← hk] at hgo
    exact .goesOn _ _ (by simpa using hmore) hgo (ht.trans h)
  · exact absurd hk hmore

/-! ### Every step keeps the invariant -/

theorem AccessOnly.legal {u : State} (h : AccessOnly s u) (hs : s.Legal) : u.Legal := by
  obtain ⟨hv, hseq, hr, hl⟩ := hs
  rw [h]
  exact ⟨hv, hseq, { hr with }, hl⟩

/-- A time-out leaves the block idle with the line released and EN low. -/
theorem State.OnTrack.legal_timeout {stage : Stage} {i : Nat} (h : s.OnTrack .sread k) (hok : s.ok = false)
    (hdir : s.sDir = false) : State.Legal { s with lastResult := .timeout stage i, seq := .idle } := by
  have hen := h.sread_dEn rfl
  have hr : State.RegsLegal { s with lastResult := .timeout stage i, seq := .idle } :=
    { sOut_low := h.sOut_low
      idle_pins := fun _ => ⟨hdir, hen⟩
      display_sDir := nofun
      sread_sDir := nofun
      sread_result := nofun
      dinit_bits := nofun
      ok_iff := by simp [hok]
      ok_frame := h.ok_frame
      initd_dOe := h.initd_dOe
      bitI_le := h.bitI_le
      wcnt_le := h.wcnt_le
      wait_open := nofun }
  obtain ⟨hevents, -, htrace, hhigh, hlow⟩ := h.latch
  exact ⟨h.valid, trivial, hr, hevents, by simp [Seq.rest, enableDiscipline, hen], htrace, hhigh, hlow⟩

theorem tick_legal (hs : s.Legal) : (tick s).Legal := by
  cases hq : s.seq with
  | idle =>
    rw [tick_idle hq]
    obtain ⟨hv, hseq, hr, hl⟩ := hs
    rw [latchLegal_iff, hq] at hl
    refine ⟨hv, hseq, { hr with }, ?_⟩
    rw [latchLegal_iff, passTick_seq, hq]
    exact State.LatchAt.passTick hl
  | running op k =>
    cases tick_effect hs hq with
    | goesOn w k' hp h hu => rw [hu]; exact h.legal_running hp
    | ends w k' hp h hu => rw [hu]; exact h.legal_idle hp
    | timesOut w stage i k' hop h hok hdir hu =>
      subst hop
      rw [hu]
      exact h.legal_timeout hok hdir

theorem resetWith_regsLegal (c : Config) : (State.resetWith c).RegsLegal where
  sOut_low := rfl
  idle_pins := fun _ => ⟨rfl, rfl⟩
  display_sDir := nofun
  sread_sDir := nofun
  sread_result := nofun
  dinit_bits := nofun
  ok_iff := by simp [State.resetWith]
  ok_frame := nofun
  initd_dOe := nofun
  bitI_le := Nat.zero_le _
  wcnt_le := Nat.zero_le _
  wait_open := nofun

/-- After a reset no recorded tick is the present one: T is 0, and ticks count from 1. -/
theorem resetNow_lastBus (h : ∀ p ∈ s.pinTrace, 1 ≤ p.t) : (resetNow s).lastBus = none := by
  unfold State.lastBus
  show s.pinTrace.getLast?.bind _ = none
  cases hl : s.pinTrace.getLast? with
  | none => rfl
  | some p =>
    have hp := h p (List.mem_of_getLast? hl)
    have ht : (resetNow s).t = 0 := rfl
    simp [ht]; omega

theorem resetNow_legal (hs : s.Legal) : (resetNow s).Legal := by
  obtain ⟨hv, -, -, hevents, -, ht, -, -⟩ := hs
  refine ⟨hv, trivial, { resetWith_regsLegal s.cfg with }, ?_, rfl, ht, nofun, fun _ b hb => ?_⟩
  · show List.filter _ (if s.displayLive then s.latchLog ++ [.abort s.t] else s.latchLog) = latchEvents s.pinTrace
    rw [← hevents]
    split <;> simp [LogEntry.isLatch]
  · rw [resetNow_lastBus ht] at hb; cases hb

/-- An accepted operation is under way at its first tick, with EN low. -/
theorem accept_underway (hv : s.cfg.Valid) (hr : s.RegsLegal) (hq : s.seq = .idle) (i : Instr) :
    (s.accept i.op (encode i) (procedureOf s.cfg i)).Underway i.op (pending (procedureOf s.cfg i)) ∧
      (s.accept i.op (encode i) (procedureOf s.cfg i)).dEn = false := by
  obtain ⟨hdir, hen⟩ := hr.idle_pins hq
  have hallowed := (PointOf.self (procedureOf s.cfg i)).pending.allowed (allowed_procedureOf hv i)
  obtain ⟨rfl, hu⟩ | ⟨rfl, n, e, he, hu⟩ | ⟨hns, hnd, rs, n, hu⟩ := accept_cases hv i <;> rw [hu]
  · obtain ⟨r, hk⟩ := sreadProc_pending hv
    exact ⟨{
      valid := hv
      allowed := hallowed
      sOut_low := hr.sOut_low
      display_sDir := fun hop => absurd rfl hop
      sread_sDir := fun _ => by simp [procedureOf, hk]
      sread_dEn := fun _ => hen
      sread_result := fun _ _ => ⟨rfl, rfl⟩
      sread_frame := nofun
      dinit_dOe := nofun
      dinit_initd := nofun
      ok_iff := by simp
      ok_frame := nofun
      initd_dOe := hr.initd_dOe
      bitI_le := Nat.zero_le _
      wcnt_le := hr.wcnt_le
      wait_open := fun h => by simp [procedureOf, hk, Stmt.isSample] at h }, hen⟩
  · exact ⟨{ hr with
      valid := hv
      allowed := hallowed
      display_sDir := fun _ => hdir
      sread_sDir := nofun
      sread_dEn := nofun
      sread_result := nofun
      sread_frame := nofun
      dinit_dOe := fun _ => rfl
      dinit_initd := fun _ _ => rfl
      initd_dOe := nofun
      wait_open := fun h => by simp [hallowed.startsWait_eq_false (by decide)] at h }, he hen⟩
  · exact ⟨{ hr with
      valid := hv
      allowed := hallowed
      display_sDir := fun _ => hdir
      sread_sDir := fun hop => absurd hop hns
      sread_dEn := fun hop => absurd hop hns
      sread_result := fun hop => absurd hop hns
      sread_frame := fun hop => absurd hop hns
      dinit_dOe := fun hop => absurd hop hnd
      dinit_initd := fun hop => absurd hop hnd
      wait_open := fun h => by simp [hallowed.startsWait_eq_false hns] at h }, rfl⟩

/-- Acceptance by an idle block makes no latch event, and the enable discipline holds of the procedure to come. -/
theorem accept_latchAt (hv : s.cfg.Valid) (hr : s.RegsLegal) (hl : s.LatchLegal) (hq : s.seq = .idle) (i : Instr) :
    (s.accept i.op (encode i) (procedureOf s.cfg i)).LatchAt (pending (procedureOf s.cfg i)) := by
  obtain ⟨-, hen⟩ := hr.idle_pins hq
  obtain ⟨-, hen'⟩ := accept_underway hv hr hq i
  have hd : enableDiscipline s.dEn s.dDb (procedureOf s.cfg i) = true := by
    rw [hen]; exact enableDiscipline_procedureOf hv i _
  obtain ⟨hlog, hd'⟩ := runDue_enLow hen hd
  obtain ⟨hevents, -, ht, -, hlow⟩ := hl
  rw [accept_eq (procedureOf_pending_ne hv i)] at hen' ⊢
  refine ⟨?_, hd', ?_, fun h => ?_, fun _ => ?_⟩
  · show List.filter _ (runDue _ s).latchLog = latchEvents (runDue _ s).pinTrace
    rw [hlog, runDue_pinTrace]; exact hevents
  · simpa using ht
  · rw [hen'] at h; cases h
  · show ∀ b, (runDue _ s).lastBus = some b → b.en = false
    rw [lastBus_runDue]; exact hlow hen

theorem accept_legal (hs : s.Legal) (hb : s.busy = false) {i : Instr} (hwf : i.wellFormed = true) :
    (s.accept i.op (encode i) (procedureOf s.cfg i)).Legal := by
  have hq := (not_busy_iff s).mp hb
  obtain ⟨hv, -, hr, hl⟩ := hs
  have hne := procedureOf_pending_ne hv i
  have hcfg : (s.accept i.op (encode i) (procedureOf s.cfg i)).cfg = s.cfg := by simp [State.accept]
  have hrunning : State.OnTrack _ i.op (pending (procedureOf s.cfg i)) :=
    { (accept_underway hv hr hq i).1 with
      latch := accept_latchAt hv hr hl hq i
      point := ⟨i, hwf, rfl, accept_ir hv i, by rw [hcfg]; exact (PointOf.self _).pending⟩ }
  have := hrunning.legal_running (by simpa using hne)
  rwa [← accept_seq hv i] at this

/-- What a step does to the block itself: a tick, a reset, an access that leaves the block alone, or the acceptance of a command by
an idle block. -/
theorem step_kinds {u : State} (h : step s = .next u) :
    (∃ s', AccessOnly s s' ∧ u = tick s') ∨
    (∃ es, s.schedule = .reset :: es ∧ u = resetNow { s with schedule := es }) ∨
    AccessOnly s u ∨
    (s.busy = false ∧ ∃ s' i, AccessOnly s s' ∧ i.wellFormed = true ∧
      u = s'.accept i.op (encode i) (procedureOf s'.cfg i)) := by
  obtain ⟨-, heff⟩ := step_effect h
  cases heff with
  | tick es hsched hu => exact .inl ⟨{ s with schedule := es }, rfl, hu⟩
  | reset es hsched hu => exact .inr (.inl ⟨es, hsched, hu⟩)
  | access hu hill hovr => exact .inr (.inr (.inl hu))
  | overrun v es hsched hb hu => exact .inr (.inr (.inl (by rw [hu]; rfl)))
  | illegal v es hsched hb hd hu => exact .inr (.inr (.inl (by rw [hu]; rfl)))
  | accept v es i hsched hb hd hu =>
    exact .inr (.inr (.inr ⟨hb, { s.wrote 1 v es with cmdh := v }, i, rfl, (decode_eq_instr hd).1, hu⟩))

/-! ### What the registers and pins show across a step -/

/-- The tick of a display operation leaves OK alone (10_state R21). -/
theorem tick_ok_of_display (hs : s.Legal) (hq : s.seq = .running op k) (hop : op ≠ .sread) : (tick s).ok = s.ok := by
  have hdue := (State.Underway.of_legal hs hq).allowed.runDue_ok hop s
  cases tick_effect hs hq with
  | goesOn w k' hp h hu => rw [hu]; exact hdue
  | ends w k' hp h hu => rw [hu]; exact (h.allowed.runDue_ok hop _).trans hdue
  | timesOut w stage i k' hsread h hok hdir hu => exact absurd hsread hop

/-- OK rises in a tick of an SREAD only as it ends, with FRAME the received bytes (10_state R21). -/
theorem tick_ok_of_sread (hs : s.Legal) (hq : s.seq = .running .sread k) (hok : (tick s).ok = true) :
    (tick s).seq = .idle ∧ (tick s).frame = (tick s).acc := by
  cases tick_effect hs hq with
  | goesOn w k' hp h hu =>
    have hne : k' ≠ [] := by rintro rfl; exact hp rfl
    have hoff := (h.sread_result rfl hne).1
    rw [hu] at hok
    exact absurd (hok.symm.trans hoff) (by decide)
  | ends w k' hp h hu =>
    rw [hu] at hok ⊢
    exact ⟨rfl, h.runDue.sread_frame rfl hok⟩
  | timesOut w stage i k' _ h hoff hdir hu =>
    rw [hu] at hok
    exact absurd (hok.symm.trans hoff) (by decide)

/-- OK of a legal state is 0 while an SREAD runs. -/
theorem State.Legal.ok_of_sread (hs : s.Legal) (hq : s.seq = .running .sread k) : s.ok = false :=
  (hs.regs.sread_result k hq).1

/-- INITD of a legal state is 0 while a DINIT runs. -/
theorem State.Legal.initd_of_dinit (hs : s.Legal) (hq : s.seq = .running .dinit k) : s.initd = false :=
  (hs.regs.dinit_bits k hq).1

/-- The tick of another operation than DINIT leaves INITD alone (10_state R22). -/
theorem tick_initd_of_ne_dinit (hs : s.Legal) (hq : s.seq = .running op k) (hop : op ≠ .dinit) :
    (tick s).initd = s.initd := by
  have hdue := (State.Underway.of_legal hs hq).allowed.runDue_initd hop s
  cases tick_effect hs hq with
  | goesOn w k' hp h hu => rw [hu]; exact hdue
  | ends w k' hp h hu => rw [hu]; exact (h.allowed.runDue_initd hop _).trans hdue
  | timesOut w stage i k' _ h hok hdir hu => rw [hu]; exact hdue

/-- INITD rises in a tick of a DINIT only as it ends (10_state R22). -/
theorem tick_initd_of_dinit (hs : s.Legal) (hq : s.seq = .running .dinit k) (hup : (tick s).initd = true) :
    (tick s).seq = .idle := by
  cases tick_effect hs hq with
  | goesOn w k' hp h hu =>
    have hne : k' ≠ [] := by rintro rfl; exact hp rfl
    have hoff := h.dinit_initd rfl hne
    rw [hu] at hup
    exact absurd (hup.symm.trans hoff) (by decide)
  | ends w k' hp h hu => rw [hu]
  | timesOut w stage i k' hop h hok hdir hu => cases hop

/-! The pin sample of a tick. -/

theorem tick_pinTrace (s : State) :
    (tick s).pinTrace = s.pinTrace ++ [⟨s.t + 1, (runDue s.seq.rest s).sDir, (runDue s.seq.rest s).sLine,
      (runDue s.seq.rest s).bus⟩] := by
  cases hq : s.seq with
  | idle => rw [tick_idle hq]; rfl
  | running op k =>
    rw [tick_running hq, endTick_keeps (f := State.pinTrace) perform_pinTrace (fun _ _ _ _ => rfl)]
    simp [Seq.rest]

@[simp] theorem tick_t (s : State) : (tick s).t = s.t + 1 := by
  cases hq : s.seq with
  | idle => rw [tick_idle hq]; rfl
  | running op k => rw [tick_running hq, endTick_keeps (f := State.t) perform_t (fun _ _ _ _ => rfl)]; simp

@[simp] theorem tick_sensor (s : State) : (tick s).sensor = s.sensor.tail := by
  cases hq : s.seq with
  | idle => rw [tick_idle hq]; rfl
  | running op k => rw [tick_running hq, endTick_keeps (f := State.sensor) perform_sensor (fun _ _ _ _ => rfl)]; simp

/-- The pins of a tick stand until the next one: no statement after the last tick of an operation moves them. -/
theorem tick_pins (hs : s.Legal) :
    (tick s).sDir = (runDue s.seq.rest s).sDir ∧ (tick s).bus = (runDue s.seq.rest s).bus := by
  cases hq : s.seq with
  | idle => rw [tick_idle hq]; exact ⟨rfl, rfl⟩
  | running op k =>
    cases tick_effect hs hq with
    | goesOn w k' hp h hu => rw [hu]; exact ⟨rfl, rfl⟩
    | ends w k' hp h hu => rw [hu]; exact h.allowed.runDue_pins hp _
    | timesOut w stage i k' hop h hok hdir hu => rw [hu]; exact ⟨rfl, rfl⟩

/-- Only SREAD drives the sensor line in a tick (10_state R26). -/
theorem sread_of_tick_sDir (hs : s.Legal) (hdrive : (runDue s.seq.rest s).sDir = true) :
    ∃ k, s.seq = .running .sread k := by
  cases hq : s.seq with
  | idle =>
    rw [hq] at hdrive
    have := (hs.regs.idle_pins hq).1
    exact absurd (hdrive.symm.trans this) (by decide)
  | running op k =>
    rw [hq] at hdrive
    by_cases hop : op = .sread
    · exact ⟨k, by rw [hop]⟩
    · have := (State.Underway.of_legal hs hq).runDue.display_sDir hop
      exact absurd (hdrive.symm.trans this) (by decide)

/-- A legal state drives the sensor line only while an SREAD runs (10_state R26). -/
theorem State.Legal.sread_of_sDir (hs : s.Legal) (hdrive : s.sDir = true) : ∃ k, s.seq = .running .sread k := by
  obtain ⟨-, -, hr, -⟩ := hs
  cases hq : s.seq with
  | idle => simp [(hr.idle_pins hq).1] at hdrive
  | running op k =>
    by_cases hop : op = .sread
    · exact ⟨k, by rw [hop]⟩
    · simp [hr.display_sDir op k hq ((isDisplay_iff op).mpr hop)] at hdrive

end

/-! ### The obligations -/

/-- Settles O56: at reset the block is idle, its counters are 0 and its pin trace is empty. -/
theorem resetIsLegal : Obligations.ResetIsLegal :=
  fun c hv => ⟨hv, trivial, resetWith_regsLegal c, rfl, rfl, nofun, nofun, nofun⟩

/-- Settles O57: each kind of step keeps the invariant. -/
theorem stepKeepsLegal : Obligations.StepKeepsLegal := by
  intro s u hs h
  obtain ⟨s', hs', rfl⟩ | ⟨es, -, rfl⟩ | hu | ⟨hb, s', i, hs', hwf, rfl⟩ := step_kinds h
  · exact tick_legal (hs'.legal hs)
  · exact resetNow_legal (AccessOnly.legal (s := s) rfl hs)
  · exact hu.legal hs
  · exact accept_legal (hs'.legal hs) ((busy_congr hs'.seq).trans hb) hwf

/-- Settles O50: a tick that ends an SREAD raises it, a reset or the acceptance of an SREAD clears it. -/
theorem okChangesOnlyBySread : Obligations.OkChangesOnlyBySread := by
  intro s u hs h
  have hu := stepKeepsLegal s u hs h
  obtain ⟨s', hs', rfl⟩ | ⟨es, hsched, rfl⟩ | hacc | ⟨hb, s', i, hs', hwf, rfl⟩ := step_kinds h
  · have hl := hs'.legal hs
    rw [← hs'.ok, ← hs'.seq]
    by_cases hread : ∃ k, s'.seq = .running .sread k
    · obtain ⟨k, hq⟩ := hread
      refine ⟨fun _ hup => ?_, fun hon => by simp [hl.ok_of_sread hq] at hon⟩
      obtain ⟨hidle, hframe⟩ := tick_ok_of_sread hl hq hup
      exact ⟨⟨k, hq⟩, hidle, hframe ▸ hu.regs.ok_frame hup, hframe, hu.regs.ok_iff.mp hup⟩
    · have hsame : (tick s').ok = s'.ok := by
        cases hq : s'.seq with
        | idle => rw [tick_idle hq]; rfl
        | running op k => exact tick_ok_of_display hl hq fun hop => hread ⟨k, hop ▸ hq⟩
      simp +contextual [hsame]
  · exact ⟨nofun, fun _ _ => .inl ⟨es, hsched⟩⟩
  · simp +contextual [hacc.ok]
  · have hv : s'.cfg.Valid := hs'.cfg ▸ hs.1
    obtain ⟨rfl, hacc⟩ | ⟨rfl, n, e, -, hacc⟩ | ⟨-, -, rs, n, hacc⟩ := accept_cases hv i <;> rw [hacc]
    · exact ⟨nofun, fun _ _ => .inr ⟨hb, _, rfl⟩⟩
    · simp +contextual [hs'.ok]
    · simp +contextual [hs'.ok]

/-- Settles O51: a tick that ends a DINIT raises INITD, a reset or the acceptance of a DINIT clears it. -/
theorem initdChangesOnlyByDinit : Obligations.InitdChangesOnlyByDinit := by
  intro s u hs h
  obtain ⟨s', hs', rfl⟩ | ⟨es, hsched, rfl⟩ | hacc | ⟨hb, s', i, hs', hwf, rfl⟩ := step_kinds h
  · have hl := hs'.legal hs
    rw [← hs'.initd, ← hs'.seq]
    by_cases hinit : ∃ k, s'.seq = .running .dinit k
    · obtain ⟨k, hq⟩ := hinit
      exact ⟨fun _ hup => ⟨⟨k, hq⟩, tick_initd_of_dinit hl hq hup⟩, fun hon => by simp [hl.initd_of_dinit hq] at hon⟩
    · have hsame : (tick s').initd = s'.initd := by
        cases hq : s'.seq with
        | idle => rw [tick_idle hq]; rfl
        | running op k => exact tick_initd_of_ne_dinit hl hq fun hop => hinit ⟨k, hop ▸ hq⟩
      simp +contextual [hsame]
  · exact ⟨nofun, fun _ _ => .inl ⟨es, hsched⟩⟩
  · simp +contextual [hacc.initd]
  · have hv : s'.cfg.Valid := hs'.cfg ▸ hs.1
    obtain ⟨rfl, hacc⟩ | ⟨rfl, n, e, -, hacc⟩ | ⟨-, -, rs, n, hacc⟩ := accept_cases hv i <;> rw [hacc]
    · simp +contextual [hs'.initd]
    · exact ⟨nofun, fun _ _ => .inr ⟨hb, _, rfl⟩⟩
    · simp +contextual [hs'.initd]

/-- Settles O54: S_OUT and S_DIR by the invariant, the pin sample by what the tick shows. -/
theorem onlySreadDrivesTheLine : Obligations.OnlySreadDrivesTheLine := by
  intro s u hs h
  have hu := stepKeepsLegal s u hs h
  refine ⟨hu.regs.sOut_low, hu.sread_of_sDir, fun p hp hdrive => ?_⟩
  have hno {q : List PinSample} (hq : q = s.pinTrace) : q ≠ s.pinTrace ++ [p] := by simp [hq]
  obtain ⟨s', hs', rfl⟩ | ⟨es, -, rfl⟩ | hacc | ⟨-, s', i, hs', -, rfl⟩ := step_kinds h
  · have hl := hs'.legal hs
    rw [tick_pinTrace, hs'.pinTrace] at hp
    obtain rfl := List.singleton_inj.mp (List.append_cancel_left hp)
    rw [← hs'.seq]
    refine ⟨?_, sread_of_tick_sDir hl hdrive⟩
    have hout := hl.regs.sOut_low
    simp only at hdrive
    simp [State.sLine, hdrive, hout]
  · exact absurd hp (hno rfl)
  · exact absurd hp (hno hacc.pinTrace)
  · exact absurd hp (hno (by simp [State.accept, hs'.pinTrace]))

/-- Settles O32: `tick_keeps` for the frame, `tick_pins` for what the sample shows. -/
theorem tickFrame : Obligations.TickFrame := by
  intro s
  refine ⟨tick_cfg s, tick_cmdl s, tick_cmdh s, tick_ill s, tick_ovr s, tick_ir s, tick_sOut s, tick_schedule s, tick_accesses s,
    tick_t s, tick_sensor s, ⟨_, tick_pinTrace s, rfl, fun hs => ?_⟩, fun hq => ?_⟩
  · obtain ⟨hdir, hbus⟩ := tick_pins hs
    dsimp only
    rw [← hdir, ← hbus, State.bus]
    simp +contextual
  · rw [tick_idle hq]; rfl

end Sys2Proof.Machine

/-!
The register window (20_memory R33 to R37, R40): the register at an offset, what a one-byte access of it does, and the accesses
that are not performed.
-/

namespace Sys2Proof.Machine

/-! ### The register at an offset -/

/-- The map of 20_memory R34, read from the offset. -/
theorem regAt_cases (off : Nat) :
    (off = 0 ∧ regAt off = .cmdl) ∨ (off = 1 ∧ regAt off = .cmdh) ∨ (off = 2 ∧ regAt off = .status) ∨
    (∃ i : Fin 5, off = 4 + i.val ∧ regAt off = .frame i) ∨ ((off = 3 ∨ 9 ≤ off) ∧ regAt off = .reserved) := by
  match off with
  | 0 | 1 | 2 | 3 => simp [regAt]
  | 4 => exact .inr (.inr (.inr (.inl ⟨0, rfl, rfl⟩)))
  | 5 => exact .inr (.inr (.inr (.inl ⟨1, rfl, rfl⟩)))
  | 6 => exact .inr (.inr (.inr (.inl ⟨2, rfl, rfl⟩)))
  | 7 => exact .inr (.inr (.inr (.inl ⟨3, rfl, rfl⟩)))
  | 8 => exact .inr (.inr (.inr (.inl ⟨4, rfl, rfl⟩)))
  | off + 9 => exact .inr (.inr (.inr (.inr ⟨.inr (by omega), rfl⟩)))

theorem regAt_reserved {off : Nat} (h : off = 3 ∨ 9 ≤ off) : regAt off = .reserved := by
  obtain ⟨ho, -⟩ | ⟨ho, -⟩ | ⟨ho, -⟩ | ⟨i, ho, -⟩ | ⟨-, hr⟩ := regAt_cases off
  case inr.inr.inr.inr => exact hr
  all_goals omega

/-- Only CMDL and CMDH take a write. -/
theorem writeReg_readOnly {off : Nat} (h : 2 ≤ off) (v : Byte) (s : State) : writeReg (regAt off) v s = .next s := by
  obtain ⟨ho, -⟩ | ⟨ho, -⟩ | ⟨-, hr⟩ | ⟨i, -, hr⟩ | ⟨-, hr⟩ := regAt_cases off
  · omega
  · omega
  all_goals rw [hr]; rfl

/-- Only a FRAME read while OK = 0 spends a free value (10_state R25). -/
theorem frame_of_readDraws_ne_zero {off : Nat} {s : State} (h : readDraws (regAt off) s ≠ 0) :
    4 ≤ off ∧ off ≤ 8 ∧ s.ok = false := by
  obtain ⟨-, hr⟩ | ⟨-, hr⟩ | ⟨-, hr⟩ | ⟨i, ho, hr⟩ | ⟨-, hr⟩ := regAt_cases off <;> rw [hr] at h
  case inr.inr.inr.inl =>
    refine ⟨by omega, by omega, ?_⟩
    simpa [readDraws] using h
  all_goals exact absurd rfl h

/-! ### One-byte accesses of the window -/

/-- The value a read returns and the draws it takes do not depend on the schedule. -/
theorem step_of_nextRead_gaveBack {s : State} {off : Nat} {es : List Event} (h : s.NextRead off es) :
    step s = .next
      { s.gaveBack off (readValue (regAt off) s) es with draws := s.draws + readDraws (regAt off) s } :=
  step_of_nextRead h

theorem step_of_nextWrite_readOnly {s : State} {off : Nat} {v : Byte} {es : List Event} (h : s.NextWrite off v es)
    (hoff : 2 ≤ off) : step s = .next (s.wrote off v es) := by
  rw [step_of_nextWrite h, writeReg_readOnly hoff]

/-! ### Accesses that are not performed -/

section
variable {s : State} {off addr n : Nat} {v : Byte}

theorem hostRead_otherWidth (hoff : off < 16) (hn : n ≠ 1) :
    hostRead (s.cfg.baseAddr + off) n s = .refused (.accessWidth n) := by
  rw [hostRead, windowOffset_eq hoff]
  exact if_neg hn

theorem hostWrite_otherWidth (hoff : off < 16) (hn : n ≠ 1) :
    hostWrite (s.cfg.baseAddr + off) n v s = .refused (.accessWidth n) := by
  rw [hostWrite, windowOffset_eq hoff]
  exact if_neg hn

theorem hostRead_outside (h : addr < s.cfg.baseAddr ∨ s.cfg.baseAddr + 16 ≤ addr) :
    hostRead addr n s = .fault (.outsideWindow addr) := by
  rw [hostRead, windowOffset_none h]

theorem hostWrite_outside (h : addr < s.cfg.baseAddr ∨ s.cfg.baseAddr + 16 ≤ addr) :
    hostWrite addr n v s = .fault (.outsideWindow addr) := by
  rw [hostWrite, windowOffset_none h]

end

/-! ### The obligations -/

/-- Settles O10, by the register at the offset; that a CMDH write stores its byte is `present_stores`. -/
theorem registerMap : Obligations.RegisterMap := by
  refine ⟨fun s off es h => ?_, fun s off v es h => ⟨?_, ?_, step_of_nextWrite_readOnly h⟩⟩
  · refine ⟨readValue (regAt off) s, _, step_of_nextRead_gaveBack h, rfl, ?_, ?_, ?_, fun i ho => ?_, fun ho => ?_⟩
    · rintro rfl; rfl
    · rintro rfl; rfl
    · rintro rfl; rfl
    · rw [ho, regAt_frame]; rfl
    · rw [regAt_reserved ho]; rfl
  · rintro rfl
    exact step_of_nextWrite h
  · rintro rfl
    obtain ⟨u, hp, hcmdh, -⟩ := present_stores (s := s.wrote 1 v es) h.1 v
    exact ⟨u, (step_of_nextWrite h).trans hp, hcmdh, hp⟩

/-- Settles O14: from offset 2 on no register takes a write. -/
theorem readOnlyWritesIgnored : Obligations.ReadOnlyWritesIgnored := by
  refine fun s off v es h => ⟨step_of_nextWrite_readOnly h, ?_, ?_⟩
  · rintro rfl
    exact step_of_nextWrite h
  · rintro rfl
    exact step_of_nextWrite h

/-- Settles O15: a read is its entry in the observation and its draws. -/
theorem readsChangeNothing : Obligations.ReadsChangeNothing :=
  fun _ _ _ h => ⟨_, _, step_of_nextRead_gaveBack h, frame_of_readDraws_ne_zero⟩

/-- Settles O16: the port tests the width before it looks at the register, and every register answers. -/
theorem otherWidthsRefused : Obligations.OtherWidthsRefused := by
  intro s off n v es hv hoff
  refine ⟨fun hn hs => ?_, fun hn hs => ?_, fun hn hs => ?_, fun hn hs => ?_⟩
  · exact (step_event hv hs).trans (hostRead_otherWidth hoff hn)
  · exact (step_event hv hs).trans (hostWrite_otherWidth hoff hn)
  · subst hn
    exact ⟨_, step_of_nextRead_gaveBack ⟨hv, hoff, hs⟩⟩
  · subst hn
    rw [step_of_nextWrite ⟨hv, hoff, hs⟩]
    exact writeReg_answers _ _ _

/-- Settles O17: outside the window an address has no offset. The fault comes before the width is looked at (log 11). -/
theorem outsideWindowFaults : Obligations.OutsideWindowFaults :=
  fun _ _ _ _ _ hv hout =>
    ⟨fun hs => (step_event hv hs).trans (hostRead_outside hout), fun hs => (step_event hv hs).trans (hostWrite_outside hout)⟩

end Sys2Proof.Machine

/-!
The words of the commands (30_encoding R45 to R50): a word is its fields, the encoder writes them and the decoder reads them, so
the decoder and the encoder agree in both directions, and a row of the opcode map is a condition on the fields.
-/

namespace Sys2Proof.Machine

/-! ### The fields of a word -/

section
variable (op a high low : Nibble) (imm : Byte)

theorem opField_append : opField (op ++ (a ++ imm)) = op := BitVec.extractLsb'_append_eq_left

theorem aField_append : aField (op ++ (a ++ imm)) = a :=
  (BitVec.extractLsb'_append_eq_of_add_le (by decide)).trans BitVec.extractLsb'_append_eq_left

theorem immField_append : immField (op ++ (a ++ imm)) = imm :=
  (BitVec.extractLsb'_append_eq_of_add_le (by decide)).trans BitVec.extractLsb'_append_eq_right

theorem immHighField_append : immHighField (op ++ (a ++ (high ++ low))) = high :=
  (BitVec.extractLsb'_append_eq_of_add_le (by decide)).trans
    ((BitVec.extractLsb'_append_eq_of_add_le (by decide)).trans BitVec.extractLsb'_append_eq_left)

theorem colField_append : colField (op ++ (a ++ (high ++ low))) = low :=
  (BitVec.extractLsb'_append_eq_of_add_le (by decide)).trans
    ((BitVec.extractLsb'_append_eq_of_add_le (by decide)).trans BitVec.extractLsb'_append_eq_right)

end

/-- A word is known from its fields. -/
theorem word_ext_fields {w w' : Word} :
    w = w' ↔ opField w = opField w' ∧ aField w = aField w' ∧ immField w = immField w' := by
  refine ⟨by rintro rfl; exact ⟨rfl, rfl, rfl⟩, fun ⟨hop, ha, himm⟩ => ?_⟩
  rw [word_eq_fields w, word_eq_fields w', hop, ha, himm]

theorem encode_dcmd (b : Byte) : encode (.dcmd b) = 3#4 ++ (0#4 ++ b) :=
  BitVec.append_assoc (x₁ := 3#4) (x₂ := 0#4) (x₃ := b)

theorem encode_ddata (b : Byte) : encode (.ddata b) = 4#4 ++ (0#4 ++ b) :=
  BitVec.append_assoc (x₁ := 4#4) (x₂ := 0#4) (x₃ := b)

/-! ### The decoder on the encoder's words -/

/-- An index below 16 is the nibble it is written as. -/
theorem toNat_ofNat_nibble {n : Nat} (h : n < 16) : (BitVec.ofNat 4 n).toNat = n := Nat.mod_eq_of_lt h

section
variable {w : Word}

theorem decode_sread (hop : opField w = 1) (ha : aField w = 0) (himm : immField w = 0) : decode w = .instr .sread := by
  simp [decode, decodeBare, hop, ha, himm]

theorem decode_dinit (hop : opField w = 2) (ha : aField w = 0) (himm : immField w = 0) : decode w = .instr .dinit := by
  simp [decode, decodeBare, hop, ha, himm]

theorem decode_dcmd {b : Byte} (hop : opField w = 3) (ha : aField w = 0) (himm : immField w = b) :
    decode w = .instr (.dcmd b) := by
  simp [decode, decodeByteOperand, hop, ha, himm]

theorem decode_ddata {b : Byte} (hop : opField w = 4) (ha : aField w = 0) (himm : immField w = b) :
    decode w = .instr (.ddata b) := by
  simp [decode, decodeByteOperand, hop, ha, himm]

theorem decode_dclear (hop : opField w = 5) (ha : aField w = 0) (himm : immField w = 0) : decode w = .instr .dclear := by
  simp [decode, decodeBare, hop, ha, himm]

theorem decode_dsetcur {col row : Nibble} (hop : opField w = 6) (ha : aField w = row) (hhigh : immHighField w = 0)
    (hcol : colField w = col) : decode w = .instr (.dsetcur col.toNat row.toNat) := by
  simp [decode, hop, ha, hhigh, hcol]

theorem decode_dclrrow {row : Nibble} (hop : opField w = 7) (ha : aField w = row) (himm : immField w = 0) :
    decode w = .instr (.dclrrow row.toNat) := by
  simp [decode, hop, ha, himm]

end

/-- The decoder reads the fields that the encoder wrote. -/
theorem decode_encode {i : Instr} (h : i.wellFormed = true) : decode (encode i) = .instr i := by
  cases i with
  | sread | dinit | dclear => rfl
  | dcmd b => rw [encode_dcmd]; exact decode_dcmd (opField_append ..) (aField_append ..) (immField_append ..)
  | ddata b => rw [encode_ddata]; exact decode_ddata (opField_append ..) (aField_append ..) (immField_append ..)
  | dsetcur col row =>
    simp only [Instr.wellFormed, Bool.and_eq_true, decide_eq_true_eq] at h
    exact (decode_dsetcur (opField_append ..) (aField_append ..) (immHighField_append ..) (colField_append ..)).trans
      (by rw [toNat_ofNat_nibble h.1, toNat_ofNat_nibble h.2])
  | dclrrow row =>
    simp only [Instr.wellFormed, decide_eq_true_eq] at h
    exact (decode_dclrrow (opField_append ..) (aField_append ..) (immField_append ..)).trans
      (by rw [toNat_ofNat_nibble h])

/-- Settles O1. -/
theorem decodeEncodeRoundTrip : Obligations.DecodeEncodeRoundTrip := fun _ => decode_encode

/-- Settles O2: `decode_eq_instr` reads the word off each branch of the decoder. -/
theorem encodeDecodeRoundTrip : Obligations.EncodeDecodeRoundTrip := fun _ _ => decode_eq_instr

/-! ### The opcode map -/

/-- The row of a command's operation matches its word (`Laws.EncodeMatches`, over the constructors). -/
theorem selects_encode {i : Instr} (hwf : i.wellFormed = true) {r : OpcodeRow} (hr : r ∈ opcodeTable) :
    r.selects (encode i) = decide (r.op = i.op) := by
  cases i with
  | sread => exact Laws.EncodeMatches.sread hwf r hr
  | dinit => exact Laws.EncodeMatches.dinit hwf r hr
  | dcmd b => exact Laws.EncodeMatches.dcmd b hwf r hr
  | ddata b => exact Laws.EncodeMatches.ddata b hwf r hr
  | dclear => exact Laws.EncodeMatches.dclear hwf r hr
  | dsetcur col row => exact Laws.EncodeMatches.dsetcur col row hwf r hr
  | dclrrow row => exact Laws.EncodeMatches.dclrrow row hwf r hr

/-- A masked comparison compares field by field. -/
theorem and_eq_iff_fields (w m p : Word) :
    w &&& m = p ↔ opField w &&& opField m = opField p ∧ aField w &&& aField m = aField p ∧
      immField w &&& immField m = immField p := by
  rw [word_ext_fields]
  simp only [opField, aField, immField, BitVec.extractLsb'_and]

/-- A field under the whole mask. -/
theorem eq_of_and_mask {x y : Nibble} (h : x &&& 0xF = y) : x = y := BitVec.and_allOnes.symm.trans h
theorem eq_of_and_byteMask {x y : Byte} (h : x &&& 0xFF = y) : x = y := BitVec.and_allOnes.symm.trans h

/-- The reserved bits of DSETCUR are those of `IMM` under the mask 0xF0 (30_encoding R45). -/
theorem immHighField_of_and_mask {w : Word} (h : immField w &&& 0xF0 = 0) : immHighField w = 0 := by
  have hhigh := congrArg (BitVec.extractLsb' 4 4) h
  rw [BitVec.extractLsb'_and, immField_eq_nibbles, BitVec.extractLsb'_append_eq_left] at hhigh
  exact eq_of_and_mask hhigh

/-- A word that a row matches decodes to a command of the row's operation (30_encoding R47). -/
theorem decode_of_and_eq {w : Word} {r : OpcodeRow} (hr : r ∈ opcodeTable) (h : w &&& r.mask = r.pattern) :
    ∃ i, decode w = .instr i ∧ i.op = r.op := by
  obtain ⟨hop, ha, himm⟩ := (and_eq_iff_fields w _ _).mp h
  simp only [opcodeTable, List.mem_cons, List.not_mem_nil, or_false] at hr
  obtain rfl | rfl | rfl | rfl | rfl | rfl | rfl := hr
  · exact ⟨_, decode_sread (eq_of_and_mask hop) (eq_of_and_mask ha) (eq_of_and_byteMask himm), rfl⟩
  · exact ⟨_, decode_dinit (eq_of_and_mask hop) (eq_of_and_mask ha) (eq_of_and_byteMask himm), rfl⟩
  · exact ⟨_, decode_dcmd (eq_of_and_mask hop) (eq_of_and_mask ha) rfl, rfl⟩
  · exact ⟨_, decode_ddata (eq_of_and_mask hop) (eq_of_and_mask ha) rfl, rfl⟩
  · exact ⟨_, decode_dclear (eq_of_and_mask hop) (eq_of_and_mask ha) (eq_of_and_byteMask himm), rfl⟩
  · exact ⟨_, decode_dsetcur (eq_of_and_mask hop) rfl (immHighField_of_and_mask himm) rfl, rfl⟩
  · exact ⟨_, decode_dclrrow (eq_of_and_mask hop) rfl (eq_of_and_byteMask himm), rfl⟩

/-- Settles O3: a row's match is a command's word by the fields, the converse is `selects_encode`; two rows that match one word
have the operation of the one command it decodes to, and the map has one row for each operation. -/
theorem opcodeMapSelectsOperation : Obligations.OpcodeMapSelectsOperation := by
  intro w
  have hrow : ∀ r ∈ opcodeTable, (w &&& r.mask = r.pattern ↔ ∃ i, decode w = .instr i ∧ i.op = r.op) := by
    refine fun r hr => ⟨decode_of_and_eq hr, ?_⟩
    rintro ⟨i, hd, hop⟩
    obtain ⟨hwf, rfl⟩ := decode_eq_instr hd
    simpa [OpcodeRow.selects, hop] using selects_encode hwf hr
  have hops : opcodeTable.Pairwise fun r r' => r.op ≠ r'.op := by decide
  refine ⟨hrow, hops.imp_of_mem fun {r r'} hr hr' hne ⟨hm, hm'⟩ => ?_⟩
  obtain ⟨i, hd, hop⟩ := (hrow r hr).mp hm
  obtain ⟨i', hd', hop'⟩ := (hrow r' hr').mp hm'
  rw [hd] at hd'
  cases hd'
  exact hne (hop.symm.trans hop')

/-! ### The illegal words -/

theorem ite_illegal_iff {p : Prop} [Decidable p] (clause : Illegal) (d : Decoded) :
    (∃ why, (if p then Decoded.illegal clause else d) = .illegal why) ↔ p ∨ ∃ why, d = .illegal why := by
  by_cases h : p <;> simp [h]

theorem decodeBare_illegal_iff (i : Instr) (w : Word) :
    (∃ why, decodeBare i w = .illegal why) ↔ aField w ≠ 0 ∨ immField w ≠ 0 := by
  simp only [decodeBare, ite_illegal_iff, reduceCtorEq, exists_false, or_false]

theorem decodeByteOperand_illegal_iff (f : Byte → Instr) (w : Word) :
    (∃ why, decodeByteOperand f w = .illegal why) ↔ aField w ≠ 0 := by
  simp only [decodeByteOperand, ite_illegal_iff, reduceCtorEq, exists_false, or_false]

/-- The clauses (a), (b), (c) of 30_encoding R48, row by row of the decoder. -/
theorem decode_illegal_iff (w : Word) : (∃ why, decode w = .illegal why) ↔
    opField w = 0x0 ∨ 0x8 ≤ (opField w).toNat ∨
    (opField w ∈ [0x1, 0x2, 0x3, 0x4, 0x5] ∧ aField w ≠ 0) ∨
    (opField w ∈ [0x1, 0x2, 0x5, 0x7] ∧ immField w ≠ 0) ∨
    (opField w = 0x6 ∧ immHighField w ≠ 0) := by
  have hlit : ∀ k : Nat, (opField w).toNat = k → opField w = BitVec.ofNat 4 k := by
    rintro _ rfl
    rw [BitVec.ofNat_toNat, BitVec.setWidth_eq]
  unfold decode
  split
  case h_1 h => simp [hlit _ h]
  case h_2 h => simp [hlit _ h, decodeBare_illegal_iff]
  case h_3 h => simp [hlit _ h, decodeBare_illegal_iff]
  case h_4 h => simp [hlit _ h, decodeByteOperand_illegal_iff]
  case h_5 h => simp [hlit _ h, decodeByteOperand_illegal_iff]
  case h_6 h => simp [hlit _ h, decodeBare_illegal_iff]
  case h_7 h => rw [ite_illegal_iff]; simp [hlit _ h]
  case h_8 h => rw [ite_illegal_iff]; simp [hlit _ h]
  case h_9 x h0 h1 h2 h3 h4 h5 h6 h7 =>
    rw [imp_false] at h0 h1 h2 h3 h4 h5 h6 h7
    exact iff_of_true ⟨_, rfl⟩ (.inr (.inl (by omega)))

theorem decode_total (w : Word) : (∃ why, decode w = .illegal why) ∨ ∃ i, decode w = .instr i := by
  cases decode w with
  | instr i => exact .inr ⟨i, rfl⟩
  | illegal why => exact .inl ⟨why, rfl⟩

/-! ### Presenting a word -/

/-- `s` with the CMDH write of `v` taken off the schedule, recorded and stored: the state in which `{v, CMDL}` is presented. -/
def State.storedHigh (s : State) (v : Byte) (es : List Event) : State := { s.wrote 1 v es with cmdh := v }

section
variable {s : State} {v : Byte} {es : List Event}

@[simp] theorem busy_storedHigh : (s.storedHigh v es).busy = s.busy := busy_congr rfl

/-- The three branches of 30_encoding R49. -/
theorem step_present_cases (h : s.NextWrite 1 v es) :
    (s.busy = true ∧ step s = .next (s.storedHigh v es).overrun) ∨
    (s.busy = false ∧ ∃ why, decode (wordOf v s.cmdl) = .illegal why ∧ step s = .next (s.storedHigh v es).illegal) ∨
    (s.busy = false ∧ ∃ i, decode (wordOf v s.cmdl) = .instr i ∧ step s = exec i (s.storedHigh v es)) := by
  rw [step_of_nextWrite h]
  obtain ⟨hb, hp⟩ | ⟨hb, why, hd, hp⟩ | ⟨hb, i, hd, hp⟩ := present_cases v (s.wrote 1 v es)
  · exact .inl ⟨hb, hp⟩
  · exact .inr (.inl ⟨hb, why, hd, hp⟩)
  · have hidle : (s.storedHigh v es).busy = false := busy_storedHigh.trans hb
    exact .inr (.inr ⟨hb, i, hd, by rw [exec_idle hidle i]; exact hp⟩)

theorem step_present_busy (h : s.NextWrite 1 v es) (hb : s.busy = true) : step s = .next (s.storedHigh v es).overrun := by
  obtain ⟨-, hp⟩ | ⟨hb', -⟩ | ⟨hb', -⟩ := step_present_cases h
  · exact hp
  all_goals simp [hb] at hb'

theorem step_present_illegal {why : Illegal} (h : s.NextWrite 1 v es) (hb : s.busy = false)
    (hd : decode (wordOf v s.cmdl) = .illegal why) : step s = .next (s.storedHigh v es).illegal := by
  obtain ⟨hb', -⟩ | ⟨-, -, -, hp⟩ | ⟨-, i, hd', -⟩ := step_present_cases h
  · simp [hb] at hb'
  · exact hp
  · simp [hd] at hd'

theorem step_present_instr {i : Instr} (h : s.NextWrite 1 v es) (hb : s.busy = false)
    (hd : decode (wordOf v s.cmdl) = .instr i) : step s = exec i (s.storedHigh v es) := by
  obtain ⟨hb', -⟩ | ⟨-, why, hd', -⟩ | ⟨-, j, hd', hp⟩ := step_present_cases h
  · simp [hb] at hb'
  · simp [hd] at hd'
  · cases hd.symm.trans hd'
    exact hp

end

/-- Settles O4. -/
theorem illegalWordsExactly : Obligations.IllegalWordsExactly :=
  ⟨decode_illegal_iff, decode_total, fun _ _ _ _ h hb hd => step_present_illegal h hb hd⟩

/-- Settles O8. -/
theorem stepRunsDecodedCommand : Obligations.StepRunsDecodedCommand := fun _ _ _ _ h hb hd => step_present_instr h hb hd

/-- Settles O9: the accepted command's word is the presented one (`decode_eq_instr`), and its procedure has a tick to come. -/
theorem presentingACommand : Obligations.PresentingACommand := by
  intro s v es h
  refine ⟨step_present_busy h, fun hb why hd => step_present_illegal h hb hd, fun hb i hd => ?_⟩
  have hstep := (step_present_instr h hb hd).trans (exec_idle (busy_storedHigh.trans hb) i)
  rw [accept_eq (procedureOf_pending_ne (show (s.storedHigh v es).cfg.Valid from h.1) i), (decode_eq_instr hd).2] at hstep
  exact ⟨_, hstep, rfl, rfl, rfl, rfl⟩

end Sys2Proof.Machine

/-!
Operands and assembler lines (30_encoding R46, R50, R52, 41_displaylink R79): an operand is read off the field that the encoder
wrote it to, and a line emits the encoder's word of its command.
-/

namespace Sys2Proof.Machine

/-! ### Operands -/

/-- A row selects row 1 exactly if the field it is written in is not 0 (30_encoding R46). -/
theorem rowSelect_eq (row : Nat) (h : row < 16) : rowSelect row = decide (BitVec.ofNat 4 row ≠ 0) := by
  have all : ∀ r : Fin 16, rowSelect r = decide (BitVec.ofNat 4 r ≠ 0) := by decide
  exact all ⟨row, h⟩

/-- Settles O5: the word is the encoder's (`decode_eq_instr`), and each operand is read off the field it was written to. -/
theorem operandsAreFields : Obligations.OperandsAreFields := by
  refine fun w => ⟨fun b h => ?_, fun col row h => ?_, fun row h => ?_⟩
  · obtain h | h := h
    · rw [← (decode_eq_instr h).2]; exact BitVec.extractLsb'_append_eq_right.symm
    · rw [← (decode_eq_instr h).2]; exact BitVec.extractLsb'_append_eq_right.symm
  · obtain ⟨hwf, rfl⟩ := decode_eq_instr h
    simp only [Instr.wellFormed, Bool.and_eq_true, decide_eq_true_eq] at hwf
    have hcol : (encode (.dsetcur col row)).extractLsb' 0 4 = BitVec.ofNat 4 col := colField_append ..
    have ha : (encode (.dsetcur col row)).extractLsb' 8 4 = BitVec.ofNat 4 row := aField_append ..
    rw [hcol, ha, toNat_ofNat_nibble hwf.1]
    exact ⟨rfl, rowSelect_eq row hwf.2⟩
  · obtain ⟨hwf, rfl⟩ := decode_eq_instr h
    simp only [Instr.wellFormed, decide_eq_true_eq] at hwf
    have ha : (encode (.dclrrow row)).extractLsb' 8 4 = BitVec.ofNat 4 row := aField_append ..
    rw [ha]
    exact rowSelect_eq row hwf

/-- Settles O6: each word is the encoder's for its command, and R48(a) and (c) hold of the last two. -/
theorem specWordsDecode : Obligations.SpecWordsDecode :=
  ⟨decode_encode (i := .sread) rfl, decode_encode (i := .dinit) rfl, decode_encode (i := .dcmd 0x28) rfl,
    decode_encode (i := .ddata 0x41) rfl, decode_encode (i := .dclear) rfl, decode_encode (i := .dsetcur 5 1) rfl,
    decode_encode (i := .dclrrow 3) rfl, (decode_illegal_iff _).mpr (by decide), (decode_illegal_iff _).mpr (by decide)⟩

/-! ### The words of the lines -/

/-- A command line emits its word exactly if its operands are in their ranges (30_encoding R50). -/
theorem emitWord_eq_ite {i : Instr} {w : Word} {q : Prop} [Decidable q] (hwf : i.wellFormed = true ↔ q)
    (hw : q → encode i = w) : emitWord i = if q then some [w] else none := by
  by_cases h : q
  · rw [if_pos h, ← hw h]; exact if_pos (hwf.mpr h)
  · rw [if_neg h]; exact if_neg (mt hwf.mp h)

/-- A line with a byte operand `n` emits the word of its command with the bits of `n` set in it, if `n` is a byte. -/
theorem emitWord_byteOperand {f : Byte → Instr} {base : Word} (hwf : ∀ b, (f b).wellFormed = true)
    (hw : ∀ n, n < 256 → encode (f (BitVec.ofNat 8 n)) = base ||| BitVec.ofNat 16 n) (n : Nat) :
    (if n < 256 then emitWord (f (BitVec.ofNat 8 n)) else none) =
      if n ≤ 255 then some [base ||| BitVec.ofNat 16 n] else none := by
  by_cases h : n < 256
  · rw [if_pos h, if_pos (by omega), ← hw n h]; exact if_pos (hwf _)
  · rw [if_neg h, if_neg (by omega)]

/-- A byte below a fixed high byte is that word with the byte's bits set in it. -/
theorem append_ofNat_eq_or (high : Byte) {n : Nat} (h : n < 256) :
    high ++ BitVec.ofNat 8 n = (high ++ 0#8) ||| BitVec.ofNat 16 n := by
  have hlow : BitVec.ofNat 16 n = 0#8 ++ BitVec.ofNat 8 n := by
    refine BitVec.eq_of_toNat_eq ?_
    rw [BitVec.toNat_append, BitVec.toNat_ofNat, BitVec.toNat_ofNat]
    simp
    omega
  rw [hlow, BitVec.or_append]
  simp

theorem encode_dcmd_ofNat {n : Nat} (h : n < 256) : encode (.dcmd (BitVec.ofNat 8 n)) = 0x3000 ||| BitVec.ofNat 16 n :=
  append_ofNat_eq_or 0x30 h

theorem encode_ddata_ofNat {n : Nat} (h : n < 256) : encode (.ddata (BitVec.ofNat 8 n)) = 0x4000 ||| BitVec.ofNat 16 n :=
  append_ofNat_eq_or 0x40 h

theorem encode_dsetcur_ofNat {col row : Nat} (hcol : col < 16) (hrow : row < 16) :
    encode (.dsetcur col row) = BitVec.ofNat 16 (0x6000 + row * 0x100 + col) := by
  have all : ∀ c r : Fin 16, encode (.dsetcur c r) = BitVec.ofNat 16 (0x6000 + r * 0x100 + c) := by decide
  exact all ⟨col, hcol⟩ ⟨row, hrow⟩

theorem encode_dclrrow_ofNat {row : Nat} (hrow : row < 16) :
    encode (.dclrrow row) = BitVec.ofNat 16 (0x7000 + row * 0x100) := by
  have all : ∀ r : Fin 16, encode (.dclrrow r) = BitVec.ofNat 16 (0x7000 + r * 0x100) := by decide
  exact all ⟨row, hrow⟩

theorem asciiCode_of_lt {c : Char} (h : c.toNat < 128) : asciiCode c = some (BitVec.ofNat 8 c.toNat) := if_pos h

theorem asciiCode_of_not_lt {c : Char} (h : ¬ c.toNat < 128) : asciiCode c = none := if_neg h

theorem printWords_cons {c : Char} (hnul : 1 ≤ c.toNat) (hascii : c.toNat < 128) {text : List Char} {ws : List Word}
    (h : printWords text = some ws) :
    printWords (c :: text) = some ((0x4000 ||| BitVec.ofNat 16 c.toNat) :: ws) := by
  rw [printWords, if_neg (by omega), asciiCode_of_lt hascii, h, ← encode_ddata_ofNat (by omega)]

/-- DPRINT up to the text's end or its NUL (41_displaylink R79). -/
theorem printWords_append {tail : List Char} (htail : printWords tail = some []) (text : List Char)
    (h : ∀ c ∈ text, 1 ≤ c.toNat ∧ c.toNat < 128) :
    printWords (text ++ tail) = some (text.map fun c => 0x4000 ||| BitVec.ofNat 16 c.toNat) := by
  induction text with
  | nil => exact htail
  | cons c text ih =>
    obtain ⟨⟨hnul, hascii⟩, htext⟩ := List.forall_mem_cons.mp h
    exact printWords_cons hnul hascii (ih htext)

/-- Settles O7, line by line. -/
theorem assemblerEmitsWords : Obligations.AssemblerEmitsWords := by
  refine ⟨rfl, rfl, rfl, fun b => ?dcmd, fun b => ?ddata, fun col row => ?dsetcur, fun row => ?dclrrow, fun w => rfl,
    fun c => ?char, fun text htext tail htail => ?dprint⟩
  case dcmd => exact emitWord_byteOperand (f := .dcmd) (fun _ => rfl) (fun _ => encode_dcmd_ofNat) b
  case ddata => exact emitWord_byteOperand (f := .ddata) (fun _ => rfl) (fun _ => encode_ddata_ofNat) b
  case dsetcur =>
    exact emitWord_eq_ite (by simp only [Instr.wellFormed, Bool.and_eq_true, decide_eq_true_eq]; omega)
      (fun h => encode_dsetcur_ofNat (by omega) (by omega))
  case dclrrow =>
    exact emitWord_eq_ite (by simp only [Instr.wellFormed, decide_eq_true_eq]; omega)
      (fun h => encode_dclrrow_ofNat (by omega))
  case char =>
    by_cases h : c.toNat < 128
    · rw [Line.words, asciiCode_of_lt h, if_pos h, ← encode_ddata_ofNat (by omega)]
      rfl
    · rw [Line.words, asciiCode_of_not_lt h, if_neg h]
      rfl
  case dprint =>
    refine printWords_append ?_ text htext
    obtain rfl | ⟨rest, rfl⟩ := htail
    · rfl
    · rfl

end Sys2Proof.Machine

/-!
The reference host (30_encoding R51): `PollsFirst` says of a schedule that every CMDH write in it comes after a poll that has seen
an idle block, with no other CMDH write between them. Every step of a run keeps it, and it holds of the reference host's accesses
with ticks between them.
-/

namespace Sys2Proof.Machine

/-! ### Polling -/

/-- Settles O21: a poll is a read of STATUS, at offset 2. -/
theorem waitIdlePolls : Obligations.WaitIdlePolls := by
  refine fun s es hv hs => ⟨fun hb => ?_, fun hb => ?_⟩
  · exact (step_event hv hs).trans (congrArg _ (pollStatus_idle (s := { s with schedule := es }) hb))
  · exact (step_event hv hs).trans (congrArg _ (pollStatus_busy (s := { s with schedule := es }) hb))

/-! ### Schedules that poll before each command -/

/-- Every write of the address `cmdh` is made on an idle block, for any durations of the operations, when `idle` says that the
block is known to be idle. A tick does not make a block busy, a poll and a reset end on an idle block, and the write itself may
start an operation. -/
def PollsFirst (cmdh : Nat) : Bool → List Event → Prop
  | _, [] => True
  | idle, .tick :: es => PollsFirst cmdh idle es
  | idle, .read _ _ :: es => PollsFirst cmdh idle es
  | idle, .write addr _ _ :: es => if addr = cmdh then idle = true ∧ PollsFirst cmdh false es else PollsFirst cmdh idle es
  | _, .waitIdle :: es => PollsFirst cmdh true es
  | _, .reset :: es => PollsFirst cmdh true es

section
variable {cmdh : Nat} {es : List Event}

/-- A schedule that polls without relying on an idle block polls on any block. -/
theorem PollsFirst.of_false (h : PollsFirst cmdh false es) (idle : Bool) : PollsFirst cmdh idle es := by
  induction es with
  | nil => trivial
  | cons e es ih =>
    cases e with
    | tick => exact ih h
    | read addr n => exact ih h
    | write addr n v =>
      rw [PollsFirst] at h ⊢
      split at h
      · exact absurd h.1 (by decide)
      next hne => rw [if_neg hne]; exact ih h
    | waitIdle => exact h
    | reset => exact h

theorem pollsFirst_filter_tick {idle : Bool} : PollsFirst cmdh idle (es.filter (· != .tick)) ↔ PollsFirst cmdh idle es := by
  induction es generalizing idle with
  | nil => rfl
  | cons e es ih => cases e <;> simp [PollsFirst, ih]

end

/-- The two writes of each word follow a poll, and the CMDL write is not one of CMDH. -/
theorem pollsFirst_referenceHost (c : Config) (ws : List Word) (idle : Bool) :
    PollsFirst (c.baseAddr + 1) idle (referenceHost c ws) := by
  induction ws generalizing idle with
  | nil => trivial
  | cons w ws ih => simp [referenceHost, commandEvents, issueEvents, PollsFirst, ih]

/-! ### A step of a host that polls -/

/-- The coming events of `s` poll before each command. -/
def State.HostPolls (s : State) : Prop := PollsFirst (s.cfg.baseAddr + 1) (!s.busy) s.schedule

theorem writeReg_keeps_inputs {r : Reg} {v : Byte} {s u : State} (h : writeReg r v s = .next u) :
    u.cfg = s.cfg ∧ u.schedule = s.schedule := by
  cases r with
  | cmdh =>
    obtain ⟨-, hp⟩ | ⟨-, why, -, hp⟩ | ⟨-, i, -, hp⟩ := present_cases v s <;> cases h.symm.trans hp
    · exact ⟨rfl, rfl⟩
    · exact ⟨rfl, rfl⟩
    · simp [State.accept]
  | _ => cases h; exact ⟨rfl, rfl⟩

section
variable {s u : State}

/-- A tick may end an operation; it starts none. -/
theorem State.HostPolls.tick (h : s.HostPolls) : (tick s).HostPolls := by
  unfold State.HostPolls at h ⊢
  rw [tick_cfg, tick_schedule]
  cases hb : s.busy with
  | true => rw [hb] at h; exact h.of_false _
  | false =>
    have hidle : (Machine.tick s).busy = false := by rw [tick_idle ((not_busy_iff s).mp hb)]; exact hb
    rw [hb] at h; rw [hidle]; exact h

/-- A write of CMDH leaves a schedule that polls on any block; a write of another register leaves the block as idle as it was. -/
theorem State.HostPolls.write {off : Nat} {v : Byte} {es : List Event} (h : s.HostPolls) (hoff : off < 16)
    (hs : s.schedule = .write (s.cfg.baseAddr + off) 1 v :: es) (hw : writeReg (regAt off) v (s.wrote off v es) = .next u) :
    u.HostPolls := by
  obtain ⟨hcfg, hsched⟩ := writeReg_keeps_inputs hw
  rw [State.HostPolls, hs, PollsFirst] at h
  rw [State.HostPolls, hcfg, hsched]
  by_cases h1 : off = 1
  · rw [if_pos (by omega)] at h
    exact h.2.of_false _
  · rw [if_neg (by omega)] at h
    obtain ⟨heq, -⟩ | ⟨hacc, -, -⟩ := writeReg_cases hoff hw
    · exact absurd heq h1
    · rw [busy_congr hacc.seq]
      exact h

theorem State.HostPolls.poll {es : List Event} (h : s.HostPolls) (hs : s.schedule = .waitIdle :: es) :
    (pollStatus { s with schedule := es }).HostPolls := by
  rw [State.HostPolls, hs] at h
  cases hb : State.busy { s with schedule := es } with
  | true => rw [pollStatus_busy hb]; exact h
  | false =>
    rw [pollStatus_idle hb, State.HostPolls]
    rw [show State.busy (readReg _ .status { s with schedule := es }) = false from hb]
    exact h

theorem step_keeps_hostPolls (h : s.HostPolls) (hstep : step s = .next u) : u.HostPolls := by
  obtain ⟨-, ⟨es, hs, rfl⟩ | ⟨off, es, -, hs, rfl⟩ | ⟨off, v, es, hoff, hs, hw⟩ | ⟨es, hs, rfl⟩ | ⟨es, hs, rfl⟩⟩ :=
    step_cases hstep
  · refine State.HostPolls.tick (s := { s with schedule := es }) ?_
    obtain ⟨-, rfl⟩ | hs := hs
    · trivial
    · rw [State.HostPolls, hs] at h; exact h
  · rw [State.HostPolls, hs] at h; exact h
  · exact h.write hoff hs hw
  · exact h.poll hs
  · rw [State.HostPolls, hs] at h; exact h

/-- A host that polls writes CMDH on an idle block only, so its steps do not set OVR (30_encoding R49). -/
theorem step_ovr_of_hostPolls (h : s.HostPolls) (hovr : s.ovr = false) (hstep : step s = .next u) : u.ovr = false := by
  by_contra hu
  obtain ⟨-, -, -, hrise⟩ := errorBitsAreSticky s u hstep
  obtain ⟨hb, v, es, hs⟩ := hrise hovr (by simpa using hu)
  simp [State.HostPolls, PollsFirst, hs, hb] at h

end

theorem run_ovr_of_hostPolls (n : Nat) {s u : State} (h : s.HostPolls) (hovr : s.ovr = false)
    (hrun : Host.Core.run Sys2Proof.core n s = .next u) : u.ovr = false := by
  induction n generalizing s with
  | zero => cases hrun; exact hovr
  | succ n ih =>
    cases hstep : step s with
    | next s' =>
      rw [run_succ_of_next (M := Sys2Proof.core) hstep] at hrun
      exact ih (step_keeps_hostPolls h hstep) (step_ovr_of_hostPolls h hovr hstep) hrun
    | fault r => simp [Host.Core.run, Sys2Proof.core, hstep] at hrun
    | refused r => simp [Host.Core.run, Sys2Proof.core, hstep] at hrun

/-- Settles O59: ticks between the reference host's accesses leave it one that polls. -/
theorem referenceHostNeverOverruns : Obligations.ReferenceHostNeverOverruns := by
  intro ws es s n u _ hovr hfilter hs hrun
  have hpolls : s.HostPolls := by
    rw [State.HostPolls, hs, ← pollsFirst_filter_tick, hfilter]
    exact pollsFirst_referenceHost s.cfg ws _
  exact run_ovr_of_hostPolls n hpolls hovr hrun

end Sys2Proof.Machine

/-!
The bits and the frame of SREAD (40_sensorlink R54, R60 to R63): the bit decision and the checksum, the shift into ACC and where
forty bits come to stand, the acceptance of SREAD, and the level of the sensor line.
-/

namespace Sys2Proof.Machine

/-! ### The bit decision and the checksum -/

theorem bitDecision_of_gt {c : Config} {h : Nat} (hh : c.bitThreshold < h) : bitDecision c h = true := decide_eq_true hh

theorem bitDecision_of_le {c : Config} {h : Nat} (hh : h ≤ c.bitThreshold) : bitDecision c h = false :=
  decide_eq_false (Nat.not_lt.mpr hh)

/-- Settles O44: the comparison of `bitDecision` is strict. -/
theorem bitDecisionIsStrict : Obligations.BitDecisionIsStrict :=
  fun s i => ⟨fun h => by rw [perform, shiftBit_acc, bitDecision_of_gt h],
    fun h => by rw [perform, shiftBit_acc, bitDecision_of_le h]⟩

theorem frameByte_eq_getElem (f : Vector Byte 5) {j : Nat} (hj : j < 5) : frameByte f j = f[j] := by
  simp [frameByte, hj]

theorem checksumValid_iff (f : Vector Byte 5) :
    checksumValid f = true ↔ (f[0].toNat + f[1].toNat + f[2].toNat + f[3].toNat) % 256 = f[4].toNat := by
  simp [checksumValid, frameByte_eq_getElem]

/-- Settles O46: validation branches on `checksumValid`. -/
theorem checksumValidation : Obligations.ChecksumValidation := by
  intro s
  rw [perform, State.validateFrame]
  exact ⟨fun h => if_pos ((checksumValid_iff s.acc).mpr h), fun h => if_neg (mt (checksumValid_iff s.acc).mp h)⟩

/-! ### Shifting a bit into ACC -/

/-- A byte shifted left by one with `b` at the low end. -/
theorem shiftLeft_or_ofBool (x : Byte) (b : Level) :
    (x <<< 1) ||| BitVec.setWidth 8 (BitVec.ofBool b) = x.shiftConcat b := by
  revert x b; decide

theorem toNat_shiftConcat_byte (x : Byte) (b : Level) : (x.shiftConcat b).toNat = (2 * x.toNat + b.toNat) % 256 := by
  have hb : b.toNat < 2 := b.toNat_lt
  rw [BitVec.toNat_shiftConcat, Nat.shiftLeft_eq]
  omega

theorem frameByte_shiftInto (f : Vector Byte 5) {i : Nat} (hi : i < 40) (b : Level) (j : Nat) :
    frameByte (shiftInto f i b) j = if j = i / 8 then (frameByte f j).shiftConcat b else frameByte f j := by
  have hbyte : i / 8 < 5 := by omega
  rw [shiftInto, shiftLeft_or_ofBool]
  by_cases hj : j = i / 8
  · subst hj; simp [frameByte, hbyte]
  · simp [frameByte, hj, Ne.symm hj]

/-- ACC after the bits `bits` have been shifted in from bit index `i` on (R61). -/
def shiftBits (acc : Vector Byte 5) (bits : List Level) (i : Nat) : Vector Byte 5 :=
  (bits.zipIdx i).foldl (fun f (b, j) => shiftInto f j b) acc

theorem shiftBits_concat (acc : Vector Byte 5) (bits : List Level) (b : Level) :
    shiftBits acc (bits ++ [b]) 0 = shiftInto (shiftBits acc bits 0) bits.length b := by
  simp [shiftBits, List.zipIdx_append]

/-- The place, after `n` bits have been shifted in, of bit `i` of the stream in its byte: it moves up with every bit of that
byte that follows it. -/
def bitPlace (n i : Nat) : Nat := min n (8 * (i / 8) + 8) - 1 - i

/-- Every bit shifted in so far stands at its place, whatever ACC held before. -/
theorem shiftBits_getLsbD (acc : Vector Byte 5) (bits : List Level) (hlen : bits.length ≤ 40) {i : Nat} (hi : i < bits.length) :
    (frameByte (shiftBits acc bits 0) (i / 8)).getLsbD (bitPlace bits.length i) = bits[i] := by
  induction bits using List.reverseRecOn with
  | nil => simp at hi
  | append_singleton bits b ih =>
    simp only [List.length_append, List.length_singleton] at hlen hi
    rw [shiftBits_concat, frameByte_shiftInto _ (by omega), List.length_append, List.length_singleton]
    obtain hlast | hbefore : i = bits.length ∨ i < bits.length := by omega
    · subst hlast
      simp [bitPlace]
    · rw [List.getElem_append_left hbefore, ← ih (by omega) hbefore]
      by_cases hbyte : i / 8 = bits.length / 8
      · have hup : bitPlace (bits.length + 1) i = bitPlace bits.length i + 1 := by unfold bitPlace; omega
        have hin : bitPlace bits.length i + 1 < 8 := by unfold bitPlace; omega
        rw [if_pos hbyte, hup, BitVec.getLsbD_shiftConcat]
        simp [hin]
      · have hstay : bitPlace (bits.length + 1) i = bitPlace bits.length i := by unfold bitPlace; omega
        rw [if_neg hbyte, hstay]

/-- Of forty bits, bit `i` of the stream is bit `7 - (i mod 8)` of its byte (R61). -/
theorem shiftBits_forty (acc : Vector Byte 5) {bits : List Level} (hlen : bits.length = 40) {i : Nat} (hi : i < 40) :
    (frameByte (shiftBits acc bits 0) (i / 8)).getLsbD (7 - i % 8) = bits[i]?.getD false := by
  have hplace : bitPlace bits.length i = 7 - i % 8 := by rw [hlen, bitPlace]; omega
  have h := shiftBits_getLsbD acc bits (by omega) (i := i) (by omega)
  rw [hplace] at h
  simp [h, hlen, hi]

/-! ### Accepting SREAD -/

/-- Settles O25: `accept_cases`, at SREAD. -/
theorem sreadAccepted : Obligations.SreadAccepted := by
  intro s hv hb
  obtain ⟨-, hu⟩ | ⟨h, -⟩ | ⟨h, -⟩ := accept_cases hv .sread
  · rw [exec_idle hb, hu]
    rfl
  · cases h
  · exact absurd rfl h

/-- Settles O45: acceptance clears ACC, one bit is `frameByte_shiftInto`, and forty are `shiftBits_forty`. -/
theorem frameAssembly : Obligations.FrameAssembly := by
  refine ⟨fun s hv hb => ⟨_, sreadAccepted s hv hb, rfl, rfl⟩, fun s i hi => ⟨rfl, fun j _ => ?_⟩,
    fun bits hlen i hi => shiftBits_forty _ hlen hi⟩
  rw [perform, shiftBit_acc, frameByte_shiftInto _ hi]
  split
  · rw [toNat_shiftConcat_byte, bitDecision, Bool.toNat, Bool.cond_decide]
  · rfl

/-! ### The sensor line -/

theorem sLine_of_driven {s : State} (h : s.sDir = true) : s.sLine = s.sOut := by rw [State.sLine, if_pos h]

theorem sLine_of_released {s : State} (h : s.sDir = false) : s.sLine = s.sensorLevel := by simp [State.sLine, h]

theorem sensorLevel_listed {s : State} {b : Level} {rest : List Level} (h : s.sensor = b :: rest) : s.sensorLevel = b := by
  rw [State.sensorLevel, h]

theorem sensorLevel_free {s : State} (h : s.sensor = []) : s.sensorLevel = Config.freeLevel s.draws := by
  rw [State.sensorLevel, h]

@[simp] theorem runDue_sensorLevel (k : List Stmt) (s : State) : (runDue k s).sensorLevel = s.sensorLevel := by
  rw [State.sensorLevel, runDue_sensor, runDue_draws]
  rfl

/-- Settles O42: the recorded level is `sLine` after the statements before the tick, and no statement touches S_OUT or the
environment. -/
theorem sensorLineLevel : Obligations.SensorLineLevel := by
  intro s hs
  refine ⟨_, tick_pinTrace s, rfl, fun hdriven => ?_, fun hreleased => ?_⟩
  · exact (sLine_of_driven hdriven).trans ((runDue_sOut _ s).trans hs.regs.sOut_low)
  · have hline := (sLine_of_released hreleased).trans (runDue_sensorLevel _ s)
    exact ⟨fun b rest h => hline.trans (sensorLevel_listed h), fun h => hline.trans (sensorLevel_free h)⟩

end Sys2Proof.Machine

/-!
Runs of an operation (00_scope R6, R11, log 7): `RunsTo` says where a number of ticks takes a running block, what BUSY and the
direction of the sensor line are on the way, and that the statements due before a tick may be run one tick early.
-/

namespace Sys2Proof.Machine

/-! ### States without their pin trace -/

/-- The state with its pin trace forgotten: no step reads the trace. -/
def State.untraced (s : State) : State := { s with pinTrace := [] }

section
variable {s s' s'' : State} {op : Op} {k due : List Stmt} {d d' : Nat}

theorem eq_of_untraced (h : s.untraced = s'.untraced) : s = { s' with pinTrace := s.pinTrace } :=
  congrArg (fun x : State => { x with pinTrace := s.pinTrace }) h

theorem busy_congr_untraced (h : s.untraced = s'.untraced) : s.busy = s'.busy :=
  (congrArg State.busy h : s.untraced.busy = s'.untraced.busy)

theorem settle_untraced (op : Op) (k : List Stmt) (s : State) : settle op k s.untraced = (settle op k s).untraced :=
  settle_withPinTrace op k s []

theorem settle_congr_untraced (h : ({ s with seq := .idle } : State).untraced = ({ s' with seq := .idle } : State).untraced) :
    (settle op k s).untraced = (settle op k s').untraced := by
  rw [← settle_untraced, ← settle_untraced]
  exact settle_congr h

/-- The end of a tick does not look at where SEQ stood. -/
theorem endTick_withSeq (level : Level) (s : State) (q : Seq) :
    endTick op k level { s with seq := q } = endTick op k level s := by
  unfold endTick
  split
  · exact settle_congr rfl
  next want stage i rest =>
    simp only [takeSample]
    split
    · exact settle_congr rfl
    · rfl
  · exact settle_congr rfl

theorem endTick_withPinTrace (level : Level) (s : State) (p : List PinSample) :
    endTick op k level { s with pinTrace := p } = { endTick op k level s with pinTrace := p } := by
  unfold endTick
  split
  · exact settle_withPinTrace _ _ _ _
  next want stage i rest =>
    simp only [takeSample]
    split
    · exact settle_withPinTrace _ _ { s with wcnt := s.wcnt + 1 } p
    · split <;> rfl
  · exact settle_withPinTrace _ _ _ _

theorem tick_withPinTrace_untraced (s : State) (p : List PinSample) :
    (tick { s with pinTrace := p }).untraced = (tick s).untraced := by
  obtain ⟨q, hq⟩ : ∃ q, s.seq = q := ⟨_, rfl⟩
  cases q with
  | idle => rw [tick_idle hq, tick_idle (s := { s with pinTrace := p }) hq]; rfl
  | running op k =>
    rw [tick_running hq, tick_running (s := { s with pinTrace := p }) hq, runDue_withPinTrace, State.untraced, State.untraced,
      ← endTick_withPinTrace, ← endTick_withPinTrace]
    rfl

theorem tick_congr_untraced (h : s.untraced = s'.untraced) : (tick s).untraced = (tick s').untraced := by
  rw [eq_of_untraced h, tick_withPinTrace_untraced]

theorem ticks_congr_untraced (h : s.untraced = s'.untraced) (n : Nat) : (ticks n s).untraced = (ticks n s').untraced := by
  induction n generalizing s s' with
  | zero => exact h
  | succ n ih => exact ih (tick_congr_untraced h)

theorem ticks_add_one (n : Nat) (s : State) : ticks (n + 1) s = tick (ticks n s) := ticks_add n 1 s

/-! ### Where an operation stands between two ticks -/

theorem pending_append (hdue : ∀ st ∈ due, Stmt.takesTick st = false) (k : List Stmt) : pending (due ++ k) = pending k := by
  induction due with
  | nil => rfl
  | cons st due ih =>
    rw [List.cons_append, pending_cons_due (hdue st (by simp)), ih fun x hx => hdue x (by simp [hx])]

theorem runDue_append (hdue : ∀ st ∈ due, Stmt.takesTick st = false) (k : List Stmt) (s : State) :
    runDue (due ++ k) s = runDue k (runDue due s) := by
  induction due generalizing s with
  | nil => rfl
  | cons st due ih =>
    have hst := hdue st (by simp)
    rw [List.cons_append, runDue_cons_due hst, runDue_cons_due hst, ih fun x hx => hdue x (by simp [hx])]

/-- Whether the block drives the sensor line in the coming tick. -/
def State.drives (s : State) : Bool := (runDue s.seq.rest s).sDir

/-- The direction of the sensor line that the last recorded tick shows. -/
def State.lastSDir (s : State) : Option Bool := s.pinTrace.getLast?.map (·.sDir)

theorem lastSDir_tick (s : State) : (tick s).lastSDir = some s.drives := by
  simp [State.lastSDir, State.drives, tick_pinTrace]

theorem drives_congr_untraced (h : s.untraced = s'.untraced) : s.drives = s'.drives := by
  rw [eq_of_untraced h, State.drives, runDue_withPinTrace]
  rfl

theorem busy_settle (h : pending k ≠ []) (s : State) : (settle op k s).busy = true := by
  rw [settle_more h, busy_iff]; simp

theorem drives_settle (h : pending k ≠ []) (s : State) : (settle op k s).drives = (runDue k s).sDir := by
  rw [settle_more h, State.drives, runDue_withSeq]
  rfl

theorem tick_settle (h : pending k ≠ []) (s : State) :
    tick (settle op k s) = endTick op (pending k) (runDue k s).sLine (runDue k s).passTick := by
  rw [settle_more h, tick_running (s := { s with seq := .running op k }) rfl, runDue_withSeq]
  exact endTick_withSeq _ (runDue k s).passTick _

/-- An operation whose point is `k` stays as it is, if the statements due are run one tick early. -/
theorem tick_settle_append (hdue : ∀ st ∈ due, Stmt.takesTick st = false) (hk : pending k ≠ []) (s : State) :
    tick (settle op (due ++ k) s) = tick (settle op k (runDue due s)) := by
  rw [tick_settle hk, tick_settle (by rwa [pending_append hdue]), pending_append hdue, runDue_append hdue]

theorem settle_append_last (hdue : ∀ st ∈ due, Stmt.takesTick st = false) (hk : pending k = []) (s : State) :
    settle op (due ++ k) s = settle op k (runDue due s) := by
  rw [settle_last hk, settle_last (by rwa [pending_append hdue]), runDue_append hdue]
  exact congrArg (runDue k) (runDue_withSeq due s .idle)

/-! ### Runs -/

/-- In `d` ticks from `s`, each of a running operation and with the sensor line's direction at `dir`, the block gets to `s'`, the
pin trace apart. -/
structure RunsTo (dir : Bool) (s : State) (d : Nat) (s' : State) : Prop where
  busy : ∀ j, j < d → (ticks j s).busy = true
  drives : ∀ j, j < d → (ticks j s).drives = dir
  final : (ticks d s).untraced = s'.untraced

variable {dir : Bool}

theorem RunsTo.of_untraced (h : s.untraced = s'.untraced) : RunsTo dir s 0 s' := ⟨nofun, nofun, h⟩

theorem RunsTo.of_tick (hb : s.busy = true) (hd : s.drives = dir) (h : (tick s).untraced = s'.untraced) : RunsTo dir s 1 s' where
  busy j hj := by rwa [Nat.lt_one_iff.mp hj]
  drives j hj := by rwa [Nat.lt_one_iff.mp hj]
  final := h

theorem RunsTo.ticks_add (h : RunsTo dir s d s') (j : Nat) : (ticks (d + j) s).untraced = (ticks j s').untraced := by
  rw [Machine.ticks_add]
  exact ticks_congr_untraced h.final j

/-- A tick of a run that goes on is one of its first part or one of its second. -/
theorem RunsTo.tick_cases (h : RunsTo dir s d s') {j : Nat} (hj : j < d + d') :
    j < d ∨ ∃ i, i < d' ∧ j = d + i ∧ (ticks j s).untraced = (ticks i s').untraced := by
  obtain hj' | ⟨i, rfl⟩ := (Nat.lt_or_ge j d).imp_right Nat.exists_eq_add_of_le
  · exact .inl hj'
  · exact .inr ⟨i, by omega, rfl, h.ticks_add i⟩

theorem RunsTo.trans (h : RunsTo dir s d s') (h' : RunsTo dir s' d' s'') : RunsTo dir s (d + d') s'' where
  busy j hj := by
    obtain hj' | ⟨i, hi, -, hsame⟩ := h.tick_cases hj
    · exact h.busy j hj'
    · exact (busy_congr_untraced hsame).trans (h'.busy i hi)
  drives j hj := by
    obtain hj' | ⟨i, hi, -, hsame⟩ := h.tick_cases hj
    · exact h.drives j hj'
    · exact (drives_congr_untraced hsame).trans (h'.drives i hi)
  final := (h.ticks_add d').trans h'.final

theorem RunsTo.eq (h : RunsTo dir s d s') : ticks d s = { s' with pinTrace := (ticks d s).pinTrace } := eq_of_untraced h.final

/-- The statements due may be run one tick early. -/
theorem RunsTo.runDue_first (hdue : ∀ st ∈ due, Stmt.takesTick st = false) (hk : pending k = [] ∨ 0 < d)
    (h : RunsTo dir (settle op k (runDue due s)) d s') : RunsTo dir (settle op (due ++ k) s) d s' := by
  by_cases hlast : pending k = []
  · rwa [settle_append_last hdue hlast]
  · have hmore : pending (due ++ k) ≠ [] := by rwa [pending_append hdue]
    obtain ⟨e, rfl⟩ : ∃ e, d = e + 1 := ⟨d - 1, by have := hk.resolve_left hlast; omega⟩
    have ht : ∀ j, ticks (j + 1) (settle op (due ++ k) s) = ticks (j + 1) (settle op k (runDue due s)) := fun j => by
      rw [ticks_succ, ticks_succ, tick_settle_append hdue hlast]
    refine ⟨fun j hj => ?_, fun j hj => ?_, (ht e).symm ▸ h.final⟩
    · cases j with
      | zero => exact busy_settle hmore s
      | succ j => rw [ht]; exact h.busy (j + 1) hj
    · cases j with
      | zero =>
        have h0 := h.drives 0 hj
        rw [ticks_zero, drives_settle hlast] at h0
        rw [ticks_zero, drives_settle hmore, runDue_append hdue, h0]
      | succ j => rw [ht]; exact h.drives (j + 1) hj

end

end Sys2Proof.Machine

/-!
The bounded wait (40_sensorlink R56, R58): time passing, one sample, one wait, and samples that the environment lists.
-/

namespace Sys2Proof.Machine

/-! ### Time passing -/

section
variable {s s' : State} {op : Op} {k : List Stmt} {d n : Nat}

theorem elapsed_elapsed (s : State) (m n : Nat) : (s.elapsed m).elapsed n = s.elapsed (m + n) := by
  simp [State.elapsed, Nat.add_assoc]

/-- What the operation goes on with after a tick is as after one tick's worth of time. -/
theorem settle_passTick (s : State) : (settle op k s.passTick).untraced = (settle op k (s.elapsed 1)).untraced :=
  settle_congr_untraced (by simp [State.untraced, State.passTick, State.elapsed])

/-- A tick of `repeat n: tick()` is counted, with the line as it is. -/
theorem runsTo_countDown {n : Nat} (hn : n ≠ 0) (s : State) :
    RunsTo s.sDir (settle op (.repeatTick n :: k) s) 1 (settle op (countDown n k) (s.elapsed 1)) := by
  have ht : (Stmt.repeatTick n).takesTick = true := by simpa [Stmt.takesTick] using hn
  have hp : pending (.repeatTick n :: k) = .repeatTick n :: k := pending_cons_tick ht k
  have hmore : pending (.repeatTick n :: k) ≠ [] := by simp [hp]
  refine .of_tick (busy_settle hmore s) (by rw [drives_settle hmore, runDue_cons_tick ht]) ?_
  rw [tick_settle hmore, hp, runDue_cons_tick ht]
  exact settle_passTick s

/-- `repeat n: tick()` lets `n` ticks of time pass with the line as it is. -/
theorem runsTo_repeatTick (n : Nat) (s : State) :
    RunsTo s.sDir (settle op (.repeatTick (n + 1) :: k) s) (n + 1) (settle op k (s.elapsed (n + 1))) := by
  induction n generalizing s with
  | zero => exact runsTo_countDown (by simp) s
  | succ n ih =>
    have hcount : countDown (n + 1 + 1) k = .repeatTick (n + 1) :: k := by simp [countDown]
    have hfirst := runsTo_countDown (op := op) (k := k) (n := n + 1 + 1) (by simp) s
    rw [hcount] at hfirst
    have h := hfirst.trans (ih (s.elapsed 1))
    rwa [elapsed_elapsed, Nat.add_comm 1] at h

/-! ### One wait -/

/-- `s` after the `k` samples of a wait (R56). -/
def State.waited (s : State) (k : Nat) : State := { s.elapsed k with wcnt := k }

@[simp] theorem waited_cfg (s : State) (k : Nat) : (s.waited k).cfg = s.cfg := rfl
@[simp] theorem waited_sDir (s : State) (k : Nat) : (s.waited k).sDir = s.sDir := rfl
@[simp] theorem waited_sensor (s : State) (k : Nat) : (s.waited k).sensor = s.sensor.drop k := rfl

/-- `s` after the samples of a wait that timed out (R56, R58). -/
def State.timedOut (s : State) (stage : Stage) (i : Nat) : State := (s.waited s.cfg.waitCeil).sensorTimeout stage i

/-- The first `n` samples from `s` on all differ from `level`. -/
def State.Misses (s : State) (level : Level) (n : Nat) : Prop := ∀ j, j < n → (s.elapsed j).sensorLevel ≠ level

variable {want : Level} {stage : Stage} {i : Nat}

theorem takeSample_hit (s : State) :
    takeSample op want stage i k want s = settle op k { s with wcnt := s.wcnt + 1 } := if_pos rfl

theorem takeSample_miss {level : Level} (hl : level ≠ want) (hn : s.wcnt + 1 ≠ s.cfg.waitCeil) :
    takeSample op want stage i k level s =
      { s with wcnt := s.wcnt + 1, seq := .running op (.sample want stage i :: k) } := (if_neg hl).trans (if_neg hn)

theorem takeSample_lastMiss {level : Level} (hl : level ≠ want) (hn : s.wcnt + 1 = s.cfg.waitCeil) :
    takeSample op want stage i k level s = State.sensorTimeout stage i { s with wcnt := s.wcnt + 1 } :=
  (if_neg hl).trans (if_pos hn)

theorem tick_settle_sample (s : State) :
    tick (settle op (.sample want stage i :: k) s) = takeSample op want stage i k s.sLine s.passTick := by
  have hp : pending (.sample want stage i :: k) = .sample want stage i :: k := pending_cons_tick rfl k
  rw [tick_settle (by simp [hp]), hp, runDue_cons_tick rfl]
  rfl

/-- One sample of a released line: if the tick ends as `s'`, it is a run of one tick to `s'`. -/
theorem runsTo_sample (hdir : s.sDir = false)
    (h : (takeSample op want stage i k s.sensorLevel s.passTick).untraced = s'.untraced) :
    RunsTo false (settle op (.sample want stage i :: k) s) 1 s' := by
  have hp : pending (.sample want stage i :: k) ≠ [] := by rw [pending_cons_tick rfl]; simp
  refine .of_tick (busy_settle hp s) (by rw [drives_settle hp, runDue_cons_tick rfl, hdir]) ?_
  rw [tick_settle_sample, sLine_of_released hdir, h]

theorem waited_passTick (s : State) (n : Nat) :
    { (s.waited n).passTick with wcnt := n + 1, seq := .idle, pinTrace := [] } = (s.waited (n + 1)).untraced := by
  simp [State.waited, State.passTick, State.elapsed, State.untraced, Nat.add_assoc]

theorem runsTo_hit (hdir : s.sDir = false) (hhit : (s.elapsed n).sensorLevel = want) :
    RunsTo false (settle op (.sample want stage i :: k) (s.waited n)) 1 (settle op k (s.waited (n + 1))) := by
  refine runsTo_sample hdir ?_
  have hlevel : (s.waited n).sensorLevel = want := hhit
  rw [hlevel, takeSample_hit]
  exact settle_congr_untraced (waited_passTick s n)

theorem runsTo_miss (hdir : s.sDir = false) (hmiss : (s.elapsed n).sensorLevel ≠ want) (hn : n + 1 ≠ s.cfg.waitCeil) :
    RunsTo false (settle op (.sample want stage i :: k) (s.waited n)) 1
      (settle op (.sample want stage i :: k) (s.waited (n + 1))) := by
  refine runsTo_sample hdir ?_
  have hlevel : (s.waited n).sensorLevel ≠ want := hmiss
  rw [takeSample_miss hlevel hn, settle_more (by rw [pending_cons_tick rfl]; simp)]
  exact congrArg (fun x : State => { x with seq := .running op (.sample want stage i :: k) }) (waited_passTick s n)

theorem runsTo_lastMiss (hdir : s.sDir = false) (hmiss : (s.elapsed n).sensorLevel ≠ want) (hn : n + 1 = s.cfg.waitCeil) :
    RunsTo false (settle op (.sample want stage i :: k) (s.waited n)) 1 (s.timedOut stage i) := by
  refine runsTo_sample hdir ?_
  have hlevel : (s.waited n).sensorLevel ≠ want := hmiss
  rw [takeSample_lastMiss hlevel hn, State.timedOut, ← hn]
  exact congrArg (State.sensorTimeout stage i) (waited_passTick s n)

theorem runsTo_misses (hdir : s.sDir = false) (hmiss : s.Misses want n) (hn : n < s.cfg.waitCeil) :
    RunsTo false (settle op (.sample want stage i :: k) (s.waited 0)) n (settle op (.sample want stage i :: k) (s.waited n)) := by
  induction n with
  | zero => exact .of_untraced rfl
  | succ n ih =>
    exact (ih (fun j hj => hmiss j (by omega)) (by omega)).trans (runsTo_miss hdir (hmiss n (by omega)) (by omega))

/-- A wait is entered with WCNT cleared. -/
theorem runsTo_waitLevel (hd : 0 < d) (h : RunsTo false (settle op (.sample want stage i :: k) (s.waited 0)) d s') :
    RunsTo false (settle op (waitLevel want stage i ++ k) s) d s' := by
  refine RunsTo.runDue_first (due := [.clearWcnt]) (by simp [Stmt.takesTick]) (.inr hd) ?_
  have hstart : (settle op (.sample want stage i :: k) (perform .clearWcnt s)).untraced =
      (settle op (.sample want stage i :: k) (s.waited 0)).untraced :=
    settle_congr_untraced (by simp [perform, State.waited, State.elapsed])
  exact Nat.zero_add d ▸ (RunsTo.of_untraced hstart).trans h

/-- A wait succeeds on the first sample at its level (R56). -/
theorem runsTo_wait_succeeds (hdir : s.sDir = false) (hn : n < s.cfg.waitCeil) (hmiss : s.Misses want n)
    (hhit : (s.elapsed n).sensorLevel = want) :
    RunsTo false (settle op (waitLevel want stage i ++ k) s) (n + 1) (settle op k (s.waited (n + 1))) :=
  runsTo_waitLevel (by omega) ((runsTo_misses hdir hmiss hn).trans (runsTo_hit hdir hhit))

/-- A wait times out on the WAIT_CEIL-th sample that is not at its level (R56, R58). -/
theorem runsTo_wait_timesOut (hv : 1 ≤ s.cfg.waitCeil) (hdir : s.sDir = false) (hmiss : s.Misses want s.cfg.waitCeil) :
    RunsTo false (settle op (waitLevel want stage i ++ k) s) s.cfg.waitCeil (s.timedOut stage i) := by
  obtain ⟨n, hn⟩ := Nat.exists_eq_add_of_le' hv
  have h := (runsTo_misses (op := op) (stage := stage) (i := i) (k := k) (n := n) hdir
    (fun j hj => hmiss j (by omega)) (by omega)).trans (runsTo_lastMiss hdir (hmiss n (by omega)) hn.symm)
  rw [← hn] at h
  exact runsTo_waitLevel hv h

/-- A wait sees its level within the ceiling or does not. -/
theorem misses_or_hit (s : State) (want : Level) (n : Nat) :
    s.Misses want n ∨ ∃ m, m < n ∧ s.Misses want m ∧ (s.elapsed m).sensorLevel = want := by
  induction n with
  | zero => exact .inl nofun
  | succ n ih =>
    obtain hmiss | ⟨m, hm, h⟩ := ih
    · by_cases hhit : (s.elapsed n).sensorLevel = want
      · exact .inr ⟨n, by omega, hmiss, hhit⟩
      · refine .inl fun j hj => ?_
        obtain hj' | rfl : j < n ∨ j = n := by omega
        · exact hmiss j hj'
        · exact hhit
    · exact .inr ⟨m, by omega, h⟩

/-! ### Listed samples -/

theorem sensorLevel_elapsed {b : Level} (h : s.sensor[n]? = some b) : (s.elapsed n).sensorLevel = b := by
  have hdrop : s.sensor.drop n = b :: s.sensor.drop (n + 1) := by
    obtain ⟨hn, rfl⟩ := List.getElem?_eq_some_iff.mp h
    exact List.drop_eq_getElem_cons hn
  exact sensorLevel_listed hdrop

theorem misses_of_sensor {later : List Level} (h : s.sensor = List.replicate n (!want) ++ later) : s.Misses want n := by
  intro j hj
  have hb : s.sensor[j]? = some (!want) := by rw [h, List.getElem?_append_left (by simpa using hj)]; simp [hj]
  rw [sensorLevel_elapsed hb]
  simp

theorem hit_of_sensor {later : List Level} (h : s.sensor = waitSamples want (n + 1) ++ later) :
    s.Misses want n ∧ (s.elapsed n).sensorLevel = want := by
  rw [waitSamples, List.append_assoc] at h
  exact ⟨misses_of_sensor h, sensorLevel_elapsed (by simp [h])⟩

end

/-- Settles O43: the wait stands after `due`, and its samples are the listed ones. -/
theorem boundedWait : Obligations.BoundedWait := by
  intro s op level stage i due rest later hv hdue hq
  dsimp only
  intro hdir
  have hceil : 1 ≤ (runDue due s).cfg.waitCeil := by rw [runDue_cfg]; exact hv.2.1
  have hstand : s = settle op (due ++ (waitLevel level stage i ++ rest)) s := by
    have hmore : pending (due ++ (waitLevel level stage i ++ rest)) ≠ [] := by
      rw [pending_append hdue]; simp [waitLevel, pending, Stmt.takesTick]
    rw [settle_more hmore, ← List.append_assoc, ← hq]
  refine ⟨fun k hk1 hk2 hsensor => ?_, fun hsensor => ?_⟩
  · obtain ⟨n, rfl⟩ := Nat.exists_eq_add_of_le' hk1
    obtain ⟨hmiss, hhit⟩ := hit_of_sensor (s := runDue due s) (by rw [runDue_sensor, hsensor])
    have h := RunsTo.runDue_first hdue (.inr hk1)
      (runsTo_wait_succeeds (op := op) (stage := stage) (i := i) (k := rest) hdir (by simpa using hk2) hmiss hhit)
    rw [← hstand] at h
    exact ⟨h.busy, h.eq⟩
  · have hmiss : (runDue due s).Misses level (runDue due s).cfg.waitCeil := misses_of_sensor (later := later) (by simp [hsensor])
    have h := RunsTo.runDue_first hdue (.inr hceil)
      (runsTo_wait_timesOut (op := op) (stage := stage) (i := i) (k := rest) hceil hdir hmiss)
    rw [← hstand, State.timedOut, runDue_cfg] at h
    exact ⟨h.busy, h.eq⟩

end Sys2Proof.Machine

/-!
SREAD (40_sensorlink R57 to R66): a sequence of waits that succeed or time out, the start pulse before it, and what the command
leaves in each case.
-/

namespace Sys2Proof.Machine

/-! ### The waits of a procedure -/

/-- What follows a wait of SREAD before the next one: a bit is shifted in after its high phase (R64). -/
def afterWait (stage : Stage) (i : Nat) : List Stmt := if stage = .bitHigh then [.shiftBit i] else []

/-- The statements of waits one after another, as SREAD makes them. -/
def waitsProc : List (Level × Stage × Nat) → List Stmt
  | [] => []
  | (level, stage, i) :: ws => waitLevel level stage i ++ (afterWait stage i ++ waitsProc ws)

/-- `s` after waits that succeeded on the positions `ks`. -/
def State.passWaits : List (Level × Stage × Nat) → List Nat → State → State
  | (_, stage, i) :: ws, k :: ks, s => State.passWaits ws ks (runDue (afterWait stage i) (s.waited k))
  | _, _, s => s

theorem waitsProc_append (ws ws' : List (Level × Stage × Nat)) : waitsProc (ws ++ ws') = waitsProc ws ++ waitsProc ws' := by
  induction ws with
  | nil => rfl
  | cons w ws ih => simp [waitsProc, ih]

theorem length_waitSamples (level : Level) (n : Nat) : (waitSamples level (n + 1)).length = n + 1 := by simp [waitSamples]

theorem samplesOf_cons (w : Level × Stage × Nat) (ws : List (Level × Stage × Nat)) (k : Nat) (ks : List Nat) :
    samplesOf (w :: ws) (k :: ks) = waitSamples w.1 k ++ samplesOf ws ks := by
  simp [samplesOf]

theorem afterWait_takesTick (stage : Stage) (i : Nat) : ∀ st ∈ afterWait stage i, Stmt.takesTick st = false := by
  unfold afterWait
  split <;> simp [Stmt.takesTick]

/-- Between two waits only ACC and BIT_I move. -/
theorem runDue_afterWait (stage : Stage) (i : Nat) (s : State) :
    runDue (afterWait stage i) s =
      { s with acc := (runDue (afterWait stage i) s).acc, bitI := (runDue (afterWait stage i) s).bitI } := by
  unfold afterWait
  split <;> rfl

@[simp] theorem runDue_afterWait_sDir (stage : Stage) (i : Nat) (s : State) :
    (runDue (afterWait stage i) s).sDir = s.sDir := by rw [runDue_afterWait]

/-- Waits that succeed take their samples, and of the registers move only ACC, BIT_I and WCNT. -/
theorem passWaits_frame (ws : List (Level × Stage × Nat)) (ks : List Nat) (hlen : ks.length = ws.length) (s : State) :
    s.passWaits ws ks = { s.elapsed ks.sum with
      acc := (s.passWaits ws ks).acc
      bitI := (s.passWaits ws ks).bitI
      wcnt := (s.passWaits ws ks).wcnt
      seq := (s.passWaits ws ks).seq } := by
  induction ws generalizing ks s with
  | nil =>
    obtain rfl := List.eq_nil_of_length_eq_zero hlen
    rfl
  | cons w ws ih =>
    obtain ⟨k, ks, rfl⟩ := List.exists_cons_of_length_eq_add_one hlen
    rw [State.passWaits, ih ks (by simpa using hlen), runDue_afterWait, List.sum_cons]
    simp [State.waited, State.elapsed, Nat.add_assoc]

section
variable {s s' : State} {op : Op} {tail : List Stmt} {d : Nat}

/-- A run goes through waits that all succeed, and then on with what comes after them. -/
theorem RunsTo.after_waits {ws : List (Level × Stage × Nat)} {ks : List Nat} {later : List Level} (hlen : ks.length = ws.length)
    (hks : ∀ k ∈ ks, 1 ≤ k ∧ k ≤ s.cfg.waitCeil) (hdir : s.sDir = false) (hsensor : s.sensor = samplesOf ws ks ++ later)
    (hd : pending tail = [] ∨ 0 < d) (h : RunsTo false (settle op tail (s.passWaits ws ks)) d s') :
    RunsTo false (settle op (waitsProc ws ++ tail) s) (ks.sum + d) s' := by
  induction ws generalizing ks s with
  | nil =>
    obtain rfl := List.eq_nil_of_length_eq_zero hlen
    simpa [State.passWaits, waitsProc] using h
  | cons w ws ih =>
    obtain ⟨level, stage, i⟩ := w
    obtain ⟨k, ks, rfl⟩ := List.exists_cons_of_length_eq_add_one hlen
    obtain ⟨hk, hks'⟩ := List.forall_mem_cons.mp hks
    obtain ⟨n, rfl⟩ := Nat.exists_eq_add_of_le' hk.1
    rw [samplesOf_cons, List.append_assoc] at hsensor
    obtain ⟨hmiss, hhit⟩ := hit_of_sensor hsensor
    have hwait := runsTo_wait_succeeds (op := op) (stage := stage) (i := i)
      (k := afterWait stage i ++ (waitsProc ws ++ tail)) hdir hk.2 hmiss hhit
    have hrest : RunsTo false (settle op (waitsProc ws ++ tail) (runDue (afterWait stage i) (s.waited (n + 1)))) (ks.sum + d) s' :=
      ih (by simpa using hlen) (by simpa using hks') (by simpa using hdir)
        (by rw [runDue_sensor, waited_sensor, hsensor, List.drop_left' (length_waitSamples level n)]) h
    have hmore : pending (waitsProc ws ++ tail) = [] ∨ 0 < ks.sum + d := by
      cases ks with
      | nil =>
        obtain rfl : ws = [] := List.eq_nil_of_length_eq_zero (by simpa using hlen.symm)
        simpa [waitsProc] using hd
      | cons k ks =>
        have hk := (hks' k (by simp)).1
        rw [List.sum_cons]
        omega
    have hrun := hwait.trans (.runDue_first (afterWait_takesTick stage i) hmore hrest)
    rwa [← Nat.add_assoc, ← List.sum_cons, ← List.append_assoc (afterWait stage i), ← List.append_assoc] at hrun

/-- Waits, and what takes no tick after them, end, one way or the other, within their ceilings (R66). -/
theorem waits_end (hv : 1 ≤ s.cfg.waitCeil) (hdir : s.sDir = false) (htail : pending tail = [])
    (ws : List (Level × Stage × Nat)) :
    ∃ d s', d ≤ ws.length * s.cfg.waitCeil ∧ (ws ≠ [] → 0 < d) ∧ s'.busy = false ∧
      RunsTo false (settle op (waitsProc ws ++ tail) s) d s' := by
  induction ws generalizing s with
  | nil =>
    refine ⟨0, settle op tail s, by simp, by simp, ?_, .of_untraced rfl⟩
    rw [settle_last htail, not_busy_iff, runDue_seq]
  | cons w ws ih =>
    obtain ⟨level, stage, i⟩ := w
    simp only [waitsProc, List.append_assoc, List.length_cons, Nat.succ_mul]
    obtain hmiss | ⟨n, hn, hmiss, hhit⟩ := misses_or_hit s level s.cfg.waitCeil
    · exact ⟨_, _, Nat.le_add_left _ _, fun _ => hv, rfl, runsTo_wait_timesOut hv hdir hmiss⟩
    · obtain ⟨d, s', hd, hpos, hend, hrun⟩ := ih (s := runDue (afterWait stage i) (s.waited (n + 1)))
        (by simpa using hv) (by simpa using hdir)
      have hmore : pending (waitsProc ws ++ tail) = [] ∨ 0 < d := by
        cases ws with
        | nil => exact .inl htail
        | cons w ws => exact .inr (hpos (by simp))
      have hceil : (runDue (afterWait stage i) (s.waited (n + 1))).cfg.waitCeil = s.cfg.waitCeil := by simp
      rw [hceil] at hd
      exact ⟨n + 1 + d, s', by omega, by omega, hend, (runsTo_wait_succeeds hdir hn hmiss hhit).trans
        (.runDue_first (afterWait_takesTick stage i) hmore hrun)⟩

end

/-! ### An accepted SREAD -/

/-- The waits of `n` bits of a frame, from bit `i` on (R57). -/
def bitWaits : Nat → Nat → List (Level × Stage × Nat)
  | 0, _ => []
  | n + 1, i => (true, .bitLow, i) :: (false, .bitHigh, i) :: bitWaits n (i + 1)

theorem flatMap_range'_eq_bitWaits (n i : Nat) :
    ((List.range' i n).flatMap fun i => [(true, .bitLow, i), (false, .bitHigh, i)]) = bitWaits n i := by
  induction n generalizing i with
  | zero => rfl
  | succ n ih => simp [List.range'_succ, bitWaits, ih]

theorem sreadWaits_eq :
    sreadWaits = (false, .ackLow, 0) :: (true, .ackHigh, 0) :: (false, .ackEnd, 0) :: bitWaits 40 0 := by
  rw [sreadWaits, List.range_eq_range', flatMap_range'_eq_bitWaits]
  rfl

theorem length_sreadWaits : sreadWaits.length = 83 := by decide

theorem readBits_eq_waitsProc (n i : Nat) : readBits n i = waitsProc (bitWaits n i) := by
  induction n generalizing i with
  | zero => rfl
  | succ n ih => simp [readBits, readBit, bitWaits, waitsProc, afterWait, ih]

/-- The procedure of SREAD after its acceptance: the start pulse, the release of the line, the 83 waits and the validation. -/
theorem sreadProc_pending_eq {c : Config} (hv : c.Valid) :
    pending (sreadProc c) = .repeatTick c.startTicks :: .setSDir false :: (waitsProc sreadWaits ++ [.validate]) := by
  have hstart : c.startTicks ≠ 0 := by have := hv.1; omega
  rw [sreadProc_eq hv, pending_cons_due rfl, pending_cons_due rfl, pending_cons_due rfl, pending_cons_due rfl,
    pending_cons_tick (by simpa [Stmt.takesTick] using hstart), readBits_eq_waitsProc, sreadWaits_eq]
  simp [waitsProc, afterWait]

/-- `s` as an accepted SREAD leaves it, but for SEQ (R64). -/
def State.reading (s : State) : State :=
  { s with ir := 0x1000, ok := false, lastResult := .none, acc := Vector.replicate 5 0x00, bitI := 0, sDir := true }

/-- `s` as the start pulse of an SREAD leaves it, with the line released. -/
def State.released (s : State) : State := { s.reading.elapsed s.cfg.startTicks with sDir := false }

theorem exec_sread {s : State} (hv : s.cfg.Valid) (hb : s.busy = false) :
    exec .sread s = .next (settle .sread
      (.repeatTick s.cfg.startTicks :: .setSDir false :: (waitsProc sreadWaits ++ [.validate])) s.reading) := by
  rw [sreadAccepted s hv hb, ← sreadProc_pending_eq hv, settle_more (by simpa using sreadProc_pending_ne hv)]
  rfl

/-- An SREAD drives the line for START_TICKS ticks and then runs its waits with the line released. -/
theorem sread_run {s s' : State} {d : Nat} (hv : s.cfg.Valid) (hb : s.busy = false) (hd : 0 < d)
    (h : RunsTo false (settle .sread (waitsProc sreadWaits ++ [.validate]) s.released) d s') :
    ∃ u, exec .sread s = .next u ∧
      (∀ k, k < s.cfg.startTicks + d → (ticks k u).busy = true) ∧
      (∀ k, k < s.cfg.startTicks + d → (ticks k u).drives = decide (k < s.cfg.startTicks)) ∧
      (ticks (s.cfg.startTicks + d) u).untraced = s'.untraced := by
  refine ⟨_, exec_sread hv hb, ?_⟩
  obtain ⟨n, hn⟩ : ∃ n, s.cfg.startTicks = n + 1 := ⟨s.cfg.startTicks - 1, by have := hv.1; omega⟩
  have hpulse := runsTo_repeatTick (op := .sread) (k := .setSDir false :: (waitsProc sreadWaits ++ [.validate])) n s.reading
  have hwaits := RunsTo.runDue_first (op := .sread) (due := [.setSDir false]) (s := s.reading.elapsed (n + 1))
    (by simp [Stmt.takesTick]) (.inr hd) (by rw [← hn]; exact h)
  rw [hn]
  refine ⟨fun k hk => ?_, fun k hk => ?_, (hpulse.ticks_add d).trans hwaits.final⟩
  · obtain hk' | ⟨j, hj, -, hsame⟩ := hpulse.tick_cases hk
    · exact hpulse.busy k hk'
    · exact (busy_congr_untraced hsame).trans (hwaits.busy j hj)
  · obtain hk' | ⟨j, hj, rfl, hsame⟩ := hpulse.tick_cases hk
    · rw [hpulse.drives k hk', decide_eq_true hk']
      rfl
    · rw [decide_eq_false (by omega), drives_congr_untraced hsame]
      exact hwaits.drives j hj

/-- Settles O49: the start pulse has its length, and each of the 83 waits ends within the ceiling. -/
theorem sreadNeverHangs : Obligations.SreadNeverHangs := by
  intro s hv hb
  have hceil : 1 ≤ s.cfg.waitCeil := hv.2.1
  obtain ⟨d, s', hd, hpos, hend, hrun⟩ :=
    waits_end (s := s.released) (op := .sread) (tail := [.validate]) hceil rfl rfl sreadWaits
  have hd0 := hpos (by simp [sreadWaits])
  obtain ⟨u, hu, hbusy, -, hfinal⟩ := sread_run hv hb hd0 hrun
  rw [length_sreadWaits] at hd
  exact ⟨u, s.cfg.startTicks + d, hu, by omega, Nat.add_le_add_left hd _, hbusy, (busy_congr_untraced hfinal).trans hend⟩

/-! ### The frame -/

/-- The lengths of the high phases among the positions of the waits of some bits: every second one (R59). -/
def highPhases : List Nat → List Nat
  | [] => []
  | [_] => []
  | _ :: h :: ks => h :: highPhases ks

theorem getElem?_highPhases (ks : List Nat) (i : Nat) : (highPhases ks)[i]? = ks[2 * i + 1]? := by
  fun_induction highPhases ks generalizing i with
  | case1 => simp
  | case2 k => simp
  | case3 k h ks ih =>
    cases i with
    | zero => rfl
    | succ i => simpa [Nat.mul_succ] using ih i

theorem length_highPhases (ks : List Nat) {n : Nat} (hlen : ks.length = 2 * n) : (highPhases ks).length = n := by
  induction n generalizing ks with
  | zero =>
    obtain rfl := List.eq_nil_of_length_eq_zero hlen
    rfl
  | succ n ih =>
    match ks, hlen with
    | k :: h :: ks, hlen => rw [highPhases, List.length_cons, ih ks (by simp at hlen; omega)]

/-- The bits of `n` passed bits are decided on their high phases and shifted into ACC. -/
theorem passWaits_bitWaits_acc (n i : Nat) (ks : List Nat) (hlen : ks.length = 2 * n) (s : State) :
    (s.passWaits (bitWaits n i) ks).acc = shiftBits s.acc ((highPhases ks).map (bitDecision s.cfg)) i := by
  induction n generalizing i ks s with
  | zero =>
    obtain rfl := List.eq_nil_of_length_eq_zero hlen
    rfl
  | succ n ih =>
    match ks, hlen with
    | k :: h :: ks, hlen =>
      rw [bitWaits, State.passWaits, State.passWaits, ih _ _ (by simp at hlen; omega)]
      rfl

theorem length_samplesOf (ws : List (Level × Stage × Nat)) (ks : List Nat) (hlen : ks.length = ws.length)
    (hks : ∀ k ∈ ks, 1 ≤ k) :
    (samplesOf ws ks).length = ks.sum := by
  induction ws generalizing ks with
  | nil =>
    obtain rfl := List.eq_nil_of_length_eq_zero hlen
    rfl
  | cons w ws ih =>
    obtain ⟨k, ks, rfl⟩ := List.exists_cons_of_length_eq_add_one hlen
    obtain ⟨hk, hks'⟩ := List.forall_mem_cons.mp hks
    obtain ⟨n, rfl⟩ := Nat.exists_eq_add_of_le' hk
    rw [samplesOf_cons, List.length_append, length_waitSamples, ih ks (by simpa using hlen) hks', List.sum_cons]

section
variable {s : State} {ws : List (Level × Stage × Nat)} {ks : List Nat}

theorem passWaits_cfg (hlen : ks.length = ws.length) : (s.passWaits ws ks).cfg = s.cfg := by
  rw [passWaits_frame ws ks hlen]; rfl

theorem passWaits_sDir (hlen : ks.length = ws.length) : (s.passWaits ws ks).sDir = s.sDir := by
  rw [passWaits_frame ws ks hlen]; rfl

theorem passWaits_sensor (hlen : ks.length = ws.length) : (s.passWaits ws ks).sensor = s.sensor.drop ks.sum := by
  rw [passWaits_frame ws ks hlen]; rfl

end

theorem released_sensor {s : State} {lead rest : List Level} (hlead : lead.length = s.cfg.startTicks)
    (h : s.sensor = lead ++ rest) : s.released.sensor = rest := by
  have hdrop : s.released.sensor = s.sensor.drop s.cfg.startTicks := rfl
  rw [hdrop, h, List.drop_left' hlead]

/-- Bit `i` of the frame after the 83 waits: whether the high phase of bit `i` was longer than BIT_THRESHOLD (R59 to R61). -/
theorem passWaits_sreadWaits_bit {s : State} {ks : List Nat} (hlen : ks.length = 83) {i : Nat} (hi : i < 40) :
    (frameByte (s.released.passWaits sreadWaits ks).acc (i / 8)).getLsbD (7 - i % 8) =
      decide (ks[4 + 2 * i]?.getD 0 > s.cfg.bitThreshold) := by
  match ks, hlen with
  | k₁ :: k₂ :: k₃ :: ks, hlen =>
    have hbits : ks.length = 2 * 40 := by simpa using hlen
    have hphases : (highPhases ks).length = 40 := length_highPhases ks hbits
    have hacc : (s.released.passWaits sreadWaits (k₁ :: k₂ :: k₃ :: ks)).acc =
        shiftBits (Vector.replicate 5 0x00) ((highPhases ks).map (bitDecision s.cfg)) 0 := by
      rw [sreadWaits_eq, State.passWaits, State.passWaits, State.passWaits, passWaits_bitWaits_acc 40 0 ks hbits]
      rfl
    have hk : (k₁ :: k₂ :: k₃ :: ks)[4 + 2 * i]? = (highPhases ks)[i]? := by
      rw [getElem?_highPhases, show 4 + 2 * i = 2 * i + 1 + 1 + 1 + 1 by omega]
      rfl
    rw [hacc, shiftBits_forty _ (by simpa using hphases) hi, hk]
    simp [bitDecision, hphases, hi]

/-- A result of SREAD that leaves ACC, BIT_I and WCNT open. -/
theorem eq_of_untraced_open {e s : State} {acc : Vector Byte 5} {bitI wcnt : Nat}
    (h : e.untraced = State.untraced { s with acc := acc, bitI := bitI, wcnt := wcnt }) :
    e = { s with acc := e.acc, bitI := e.bitI, wcnt := e.wcnt, pinTrace := e.pinTrace } := by
  obtain rfl : e.acc = acc := congrArg State.acc h
  obtain rfl : e.bitI = bitI := congrArg State.bitI h
  obtain rfl : e.wcnt = wcnt := congrArg State.wcnt h
  exact eq_of_untraced h

/-- `s` as an SREAD of `d` ticks leaves it that times out, but for ACC, BIT_I and WCNT (R58). -/
def State.failedRead (s : State) (d : Nat) (stage : Stage) (i : Nat) : State :=
  { s.elapsed d with ir := 0x1000, ok := false, sDir := false, lastResult := .timeout stage i }

/-- `s` as an SREAD of `d` ticks leaves it that has received the bytes `acc`, but for ACC, BIT_I and WCNT (R63, R64). -/
def State.completedRead (s : State) (d : Nat) (acc : Vector Byte 5) : State :=
  { s.elapsed d with
    ir := 0x1000
    ok := checksumValid acc
    frame := if checksumValid acc then acc else s.frame
    sDir := false
    lastResult := if checksumValid acc then .okFrame else .checksumFail }

section
variable {s : State} {ws : List (Level × Stage × Nat)} {ks : List Nat}

theorem timedOut_released (hlen : ks.length = ws.length) (stage : Stage) (i : Nat) :
    (s.released.passWaits ws ks).timedOut stage i =
      { s.failedRead (s.cfg.startTicks + ks.sum + s.cfg.waitCeil) stage i with
        acc := (s.released.passWaits ws ks).acc
        bitI := (s.released.passWaits ws ks).bitI
        wcnt := s.cfg.waitCeil } := by
  rw [passWaits_frame ws ks hlen]
  simp [State.timedOut, State.sensorTimeout, State.waited, State.failedRead, State.released, State.reading, State.elapsed,
    Nat.add_assoc]

theorem settle_validate_released (hlen : ks.length = ws.length) :
    settle .sread [.validate] (s.released.passWaits ws ks) =
      { s.completedRead (s.cfg.startTicks + ks.sum) (s.released.passWaits ws ks).acc with
        acc := (s.released.passWaits ws ks).acc
        bitI := (s.released.passWaits ws ks).bitI
        wcnt := (s.released.passWaits ws ks).wcnt } := by
  have hframe := passWaits_frame ws ks hlen s.released
  generalize s.released.passWaits ws ks = u at hframe ⊢
  rw [settle_last rfl, runDue_cons_due rfl, runDue_nil, perform, State.validateFrame, hframe]
  cases hsum : checksumValid u.acc <;>
    simp [hsum, State.completedRead, State.released, State.reading, State.elapsed, Nat.add_assoc]

end

/-- Settles O48: the waits before the one that fails are passed, and it times out. -/
theorem sreadTimesOut : Obligations.SreadTimesOut := by
  intro s lead later ks passed after level stage i hv hb hlead hwaits hlen hks hsensor
  have hceil : 1 ≤ s.cfg.waitCeil := hv.2.1
  have hproc : waitsProc sreadWaits ++ [.validate] =
      waitsProc passed ++ (waitLevel level stage i ++ (afterWait stage i ++ (waitsProc after ++ [.validate]))) := by
    simp [hwaits, waitsProc_append, waitsProc]
  have hreleased : s.released.sensor = samplesOf passed ks ++ (List.replicate s.cfg.waitCeil (!level) ++ later) :=
    released_sensor hlead (by simpa using hsensor)
  have hcfg : (s.released.passWaits passed ks).cfg = s.cfg := passWaits_cfg hlen
  have hmiss : (s.released.passWaits passed ks).Misses level s.cfg.waitCeil := misses_of_sensor (by
    rw [passWaits_sensor hlen, hreleased, List.drop_left' (length_samplesOf passed ks hlen fun k hk => (hks k hk).1)])
  have hfail := runsTo_wait_timesOut (op := .sread) (stage := stage) (i := i)
    (k := afterWait stage i ++ (waitsProc after ++ [.validate])) (hcfg ▸ hceil) (passWaits_sDir hlen) (hcfg ▸ hmiss)
  rw [hcfg] at hfail
  have hrun := RunsTo.after_waits (s := s.released) hlen hks rfl hreleased (.inr hceil) hfail
  rw [← hproc] at hrun
  obtain ⟨u, hu, hbusy, -, hfinal⟩ := sread_run hv hb (by omega) hrun
  rw [← Nat.add_assoc] at hbusy hfinal
  rw [timedOut_released hlen] at hfinal
  exact ⟨u, hu, hbusy, eq_of_untraced_open (s := s.failedRead _ stage i) hfinal⟩

/-- Settles O47: the 83 waits are passed, the bits are decided on the second waits of the pairs, and the frame is validated. -/
theorem sreadReadsFrame : Obligations.SreadReadsFrame := by
  intro s lead later ks hv hb hlead hlen hks hsensor
  have hlen' : ks.length = sreadWaits.length := by rw [hlen, length_sreadWaits]
  have hreleased : s.released.sensor = samplesOf sreadWaits ks ++ later := released_sensor hlead (by simpa using hsensor)
  have hpos : 0 < ks.sum := by
    obtain ⟨k, ks, rfl⟩ := List.exists_cons_of_length_eq_add_one hlen
    have hk := (hks k (by simp)).1
    rw [List.sum_cons]
    omega
  have hrun := RunsTo.after_waits (s := s.released) (op := .sread) (tail := [.validate]) hlen' hks rfl hreleased (.inl rfl)
    (.of_untraced rfl)
  obtain ⟨u, hu, hbusy, hdrives, hfinal⟩ := sread_run hv hb hpos hrun
  have hacc : (ticks (s.cfg.startTicks + ks.sum) u).acc = (s.released.passWaits sreadWaits ks).acc := by
    rw [eq_of_untraced hfinal, settle_validate_released hlen']
  refine ⟨u, hu, hbusy, fun k hk1 hk2 => ?_, fun i hi => ?_, ?_⟩
  · obtain ⟨j, rfl⟩ := Nat.exists_eq_add_of_le' hk1
    rw [ticks_add_one]
    exact (lastSDir_tick _).trans (congrArg some (hdrives j hk2))
  · rw [hacc]
    exact passWaits_sreadWaits_bit hlen hi
  · rw [settle_validate_released hlen', ← hacc] at hfinal
    exact eq_of_untraced_open (s := s.completedRead _ _) hfinal

end Sys2Proof.Machine

/-!
The display bus in runs of an operation (00_scope R11, 41_displaylink R70, R71): `DisplayRun` is a run with what the bus shows in
each of its ticks, `State.Resumes` says from which state and statement an operation goes on, and nibbles and bytes are such runs.
-/

namespace Sys2Proof.Machine

/-! ### The bus in a run -/

/-- The bus that the coming tick shows. -/
def State.nextBus (s : State) : Option BusLevels := (runDue s.seq.rest s).bus

theorem lastPins_tick (s : State) : (tick s).lastPins = some (s.t + 1, s.nextBus) := by
  simp [State.lastPins, State.nextBus, tick_pinTrace]

@[simp] theorem ticks_t (n : Nat) (s : State) : (ticks n s).t = s.t + n := by
  induction n with
  | zero => rfl
  | succ n ih => rw [ticks_add_one, tick_t, ih]; rfl

section
variable {s s' s'' s₀ : State} {op : Op} {k due : List Stmt} {d d' n : Nat} {dir : Bool} {bus bus' : Nat → Option BusLevels}

theorem nextBus_congr_untraced (h : s.untraced = s'.untraced) : s.nextBus = s'.nextBus := by
  rw [eq_of_untraced h, State.nextBus, runDue_withPinTrace]
  rfl

/-- `RunsTo` with the display pins: in the `j`-th of the `d` ticks, counted from 1, they are as `bus j`. -/
structure DisplayRun (dir : Bool) (bus : Nat → Option BusLevels) (s : State) (d : Nat) (s' : State) : Prop
    extends RunsTo dir s d s' where
  shows : ∀ j, j < d → (ticks j s).nextBus = bus (j + 1)

theorem DisplayRun.lastPins (h : DisplayRun dir bus s d s') {j : Nat} (h1 : 1 ≤ j) (hd : j ≤ d) :
    (ticks j s).lastPins = some (s.t + j, bus j) := by
  obtain ⟨i, rfl⟩ := Nat.exists_eq_add_of_le' h1
  rw [ticks_add_one, lastPins_tick, h.shows i hd, ticks_t]
  rfl

theorem DisplayRun.congr_bus (h : DisplayRun dir bus s d s') (hbus : ∀ j, 1 ≤ j → j ≤ d → bus j = bus' j) :
    DisplayRun dir bus' s d s' :=
  { h with shows := fun j hj => (h.shows j hj).trans (hbus _ (by omega) hj) }

theorem DisplayRun.trans (h : DisplayRun dir bus s d s') (h' : DisplayRun dir bus' s' d' s'') :
    DisplayRun dir (fun j => if j ≤ d then bus j else bus' (j - d)) s (d + d') s'' where
  toRunsTo := h.toRunsTo.trans h'.toRunsTo
  shows j hj := by
    obtain hj' | ⟨i, hi, rfl, hsame⟩ := h.tick_cases hj
    · rw [h.shows j hj', if_pos (Nat.succ_le_of_lt hj')]
    · rw [nextBus_congr_untraced hsame, h'.shows i hi, if_neg (by omega)]
      congr 1
      omega

/-! ### Where an operation resumes -/

/-- At its next tick the block does what the operation `op`, standing at `k`, does from `s₀`. -/
def State.Resumes (s : State) (op : Op) (k : List Stmt) (s₀ : State) : Prop :=
  ∃ r, s.seq = .running op r ∧ pending r = pending k ∧ ∃ q, runDue r s = { runDue k s₀ with seq := q }

theorem State.StandsAt.resumes (h : s.StandsAt op k) : s.Resumes op k s := by
  obtain ⟨r, hq, hp, hrun⟩ := h
  exact ⟨r, hq, hp, _, hrun⟩

/-- An operation resumes after the statements due. -/
theorem resumes_settle_append (hdue : ∀ st ∈ due, Stmt.takesTick st = false) (hk : pending k ≠ []) (s : State) :
    (settle op (due ++ k) s).Resumes op k (runDue due s) := by
  have hp := pending_append hdue k
  rw [settle_more (by rwa [hp])]
  exact ⟨_, rfl, hp, .running op (due ++ k), by rw [runDue_withSeq, runDue_append hdue]⟩

/-- An accepted command resumes at the start of its procedure. -/
theorem resumes_accept (hk : pending k ≠ []) (w : Word) (s : State) :
    (s.accept op w k).Resumes op k { s with ir := w } := by
  rw [accept_eq hk]
  exact ⟨_, rfl, pending_pending k, .running op (pending k), by rw [runDue_pending, runDue_withIr k s w]⟩

theorem State.Resumes.append (hdue : ∀ st ∈ due, Stmt.takesTick st = false) (h : s.Resumes op (due ++ k) s₀) :
    s.Resumes op k (runDue due s₀) := by
  obtain ⟨r, hq, hp, q, hrun⟩ := h
  exact ⟨r, hq, hp.trans (pending_append hdue k), q, by rw [hrun, runDue_append hdue]⟩

theorem State.Resumes.busy (h : s.Resumes op k s₀) : s.busy = true := by
  obtain ⟨r, hq, -⟩ := h
  rw [busy_iff, hq]
  exact Seq.noConfusion

theorem State.Resumes.drives (h : s.Resumes op k s₀) : s.drives = (runDue k s₀).sDir := by
  obtain ⟨r, hq, -, q, hrun⟩ := h
  rw [State.drives, hq, Seq.rest, hrun]

theorem State.Resumes.nextBus (h : s.Resumes op k s₀) : s.nextBus = (runDue k s₀).bus := by
  obtain ⟨r, hq, -, q, hrun⟩ := h
  rw [State.nextBus, hq, Seq.rest, hrun]
  rfl

theorem State.Resumes.tick (h : s.Resumes op k s₀) (hk : pending k ≠ []) : tick s = tick (settle op k s₀) := by
  obtain ⟨r, hq, hp, q, hrun⟩ := h
  rw [tick_settle hk, tick_running hq, hp, hrun]
  exact endTick_withSeq _ (runDue k s₀).passTick q

theorem nextBus_settle (h : pending k ≠ []) (s : State) : (settle op k s).nextBus = (runDue k s).bus := by
  rw [settle_more h, State.nextBus, runDue_withSeq]
  rfl

/-- From where an operation resumes it runs as from the point it resumes at. -/
theorem State.Resumes.run (h : s.Resumes op k s₀) (hk : pending k ≠ []) (hd : 0 < d)
    (hrun : DisplayRun dir bus (settle op k s₀) d s') : DisplayRun dir bus s d s' := by
  obtain ⟨e, rfl⟩ : ∃ e, d = e + 1 := ⟨d - 1, by omega⟩
  have ht : ∀ j, ticks (j + 1) s = ticks (j + 1) (settle op k s₀) := fun j => by
    rw [ticks_succ, ticks_succ, h.tick hk]
  refine ⟨⟨fun j hj => ?_, fun j hj => ?_, ht e ▸ hrun.final⟩, fun j hj => ?_⟩
  · cases j with
    | zero => exact h.busy
    | succ j => rw [ht]; exact hrun.busy (j + 1) hj
  · cases j with
    | zero => exact h.drives.trans ((drives_settle hk s₀).symm.trans (hrun.drives 0 hj))
    | succ j => rw [ht]; exact hrun.drives (j + 1) hj
  · cases j with
    | zero => exact h.nextBus.trans ((nextBus_settle hk s₀).symm.trans (hrun.shows 0 hj))
    | succ j => rw [ht]; exact hrun.shows (j + 1) hj

/-- Every run shows some bus. -/
theorem RunsTo.displayRun (h : RunsTo dir s d s') : DisplayRun dir (fun j => (ticks (j - 1) s).nextBus) s d s' :=
  { h with shows := fun _ _ => rfl }

/-! ### Time passing on the bus -/

theorem displayRun_countDown (hn : n ≠ 0) (s : State) :
    DisplayRun s.sDir (fun _ => s.bus) (settle op (.repeatTick n :: k) s) 1 (settle op (countDown n k) (s.elapsed 1)) where
  toRunsTo := runsTo_countDown hn s
  shows j hj := by
    have ht : (Stmt.repeatTick n).takesTick = true := by simpa [Stmt.takesTick] using hn
    rw [Nat.lt_one_iff.mp hj, ticks_zero, nextBus_settle (pending_repeatTick_ne hn k), runDue_cons_tick ht]

/-- `repeat n: tick()` lets `n` ticks of time pass with the bus as it is. -/
theorem displayRun_repeatTick (n : Nat) (s : State) :
    DisplayRun s.sDir (fun _ => s.bus) (settle op (.repeatTick (n + 1) :: k) s) (n + 1) (settle op k (s.elapsed (n + 1))) := by
  induction n generalizing s with
  | zero => exact displayRun_countDown (by simp) s
  | succ n ih =>
    have hcount : countDown (n + 1 + 1) k = .repeatTick (n + 1) :: k := by simp [countDown]
    have hfirst := displayRun_countDown (op := op) (k := k) (n := n + 1 + 1) (by simp) s
    rw [hcount] at hfirst
    have h := hfirst.trans (ih (s.elapsed 1))
    rw [elapsed_elapsed, Nat.add_comm 1] at h
    exact h.congr_bus fun j _ _ => ite_self _

/-- Statements that take no tick, then `repeat n: tick()`: in all `n` ticks the bus is as the statements leave it. -/
theorem displayRun_phase (hdue : ∀ st ∈ due, Stmt.takesTick st = false) (hn : 1 ≤ n)
    (hend : (runDue due s).elapsed n = s') :
    DisplayRun s'.sDir (fun _ => s'.bus) (settle op (due ++ .repeatTick n :: k) s) n (settle op k s') := by
  subst hend
  obtain ⟨m, rfl⟩ := Nat.exists_eq_add_of_le' hn
  have hk := pending_repeatTick_ne (Nat.succ_ne_zero m) k
  exact (resumes_settle_append hdue hk s).run hk hn (displayRun_repeatTick m (runDue due s))

/-- A wait of any length, if the procedure has a tick after it. -/
theorem DisplayRun.after_repeatTick (hk : pending k ≠ []) (hd : 0 < d) (hdir : s.sDir = dir)
    (h : DisplayRun dir bus (settle op k (s.elapsed n)) d s') :
    DisplayRun dir (fun j => if j ≤ n then s.bus else bus (j - n)) (settle op (.repeatTick n :: k) s) (n + d) s' := by
  subst hdir
  cases n with
  | zero =>
    rw [Nat.zero_add]
    have hstart : settle op k s = settle op k (s.elapsed 0) := settle_congr rfl
    have hrun := (resumes_settle_append (op := op) (due := [.repeatTick 0]) (by simp [Stmt.takesTick]) hk s).run hk hd
      (hstart ▸ h)
    exact hrun.congr_bus fun j hj _ => by rw [if_neg (by omega)]; rfl
  | succ n => exact (displayRun_repeatTick n s).trans h

/-- The last wait of a procedure, of any length. -/
theorem runsTo_lastWait (hk : pending k = []) (hdir : s.sDir = dir) (n : Nat) :
    RunsTo dir (settle op (.repeatTick n :: k) s) n (settle op k (s.elapsed n)) := by
  subst hdir
  cases n with
  | zero =>
    have hstart : settle op (.repeatTick 0 :: k) s = settle op k (s.elapsed 0) :=
      (settle_append_last (due := [.repeatTick 0]) (by simp [Stmt.takesTick]) hk s).trans (settle_congr rfl)
    exact .of_untraced (congrArg State.untraced hstart)
  | succ n => exact runsTo_repeatTick n s

/-! ### Nibbles and bytes -/

theorem nibbleTicks_pos {c : Config} (hv : c.Valid) : 0 < c.nibbleTicks := by
  obtain ⟨-, -, -, hsetup, -⟩ := hv
  unfold Config.nibbleTicks
  omega

theorem byteTicks_pos {c : Config} (hv : c.Valid) : 0 < c.byteTicks := Nat.mul_pos (by decide) (nibbleTicks_pos hv)

theorem writeNibble_pending_ne {c : Config} (hv : c.Valid) (nib : Nibble) (k : List Stmt) :
    pending (writeNibble c nib ++ k) ≠ [] := by
  rw [writeNibble_pending hv]
  exact List.cons_ne_nil _ _

/-- `s` after `d` ticks of a display operation, with their latch events `es`: RS at `rs`, the data lines at `n`, EN low. -/
def State.displayed (s : State) (d : Nat) (es : List LogEntry) (rs : Level) (n : Nibble) : State :=
  { (s.elapsed d).withLatches es with dRs := rs, dDb := n, dEn := false }

theorem displayed_displayed (s : State) (d d' : Nat) (es es' : List LogEntry) (rs rs' : Level) (nib nib' : Nibble) :
    (s.displayed d es rs nib).displayed d' es' rs' nib' = s.displayed (d + d') (es ++ es') rs' nib' := by
  simp [State.displayed, State.withLatches, State.elapsed, drivenOnly_append, Nat.add_assoc]

theorem displayed_elapsed (s : State) (d n : Nat) (es : List LogEntry) (rs : Level) (nib : Nibble) :
    (s.displayed d es rs nib).elapsed n = s.displayed (d + n) es rs nib := by
  simp [State.displayed, State.withLatches, State.elapsed, Nat.add_assoc]

@[simp] theorem displayed_cfg (s : State) (d : Nat) (es : List LogEntry) (rs : Level) (nib : Nibble) :
    (s.displayed d es rs nib).cfg = s.cfg := rfl
@[simp] theorem displayed_t (s : State) (d : Nat) (es : List LogEntry) (rs : Level) (nib : Nibble) :
    (s.displayed d es rs nib).t = s.t + d := rfl
@[simp] theorem displayed_sDir (s : State) (d : Nat) (es : List LogEntry) (rs : Level) (nib : Nibble) :
    (s.displayed d es rs nib).sDir = s.sDir := rfl
@[simp] theorem displayed_dOe (s : State) (d : Nat) (es : List LogEntry) (rs : Level) (nib : Nibble) :
    (s.displayed d es rs nib).dOe = s.dOe := rfl
@[simp] theorem displayed_dRs (s : State) (d : Nat) (es : List LogEntry) (rs : Level) (nib : Nibble) :
    (s.displayed d es rs nib).dRs = rs := rfl

/-- The bus with its pins at `b`, high-impedance unless it is driven (10_state R27). -/
def drivenBus (dOe : Bool) (b : BusLevels) : Option BusLevels := if dOe then some b else none

/-- The three phases of a nibble: EN is low, high and low again (41_displaylink R70). -/
theorem enLevel_phases {α : Type} (c : Config) (f : Level → α) (j : Nat) :
    (if j ≤ c.enSetupTicks + c.enHighTicks then if j ≤ c.enSetupTicks then f false else f true else f false) =
      f (enLevel c j) := by
  unfold enLevel
  split
  next hhigh =>
    split
    next hsetup => rw [decide_eq_false (by omega)]
    next hsetup => rw [decide_eq_true (by omega)]
  next hlow => rw [decide_eq_false (by omega)]

/-- `s` after `d` ticks of a nibble `nib` before its latch event, with EN at `en`. -/
def State.holding (s : State) (d : Nat) (nib : Nibble) (en : Level) : State := { s.elapsed d with dDb := nib, dEn := en }

/-- R70: a nibble, on the bus for N ticks with its enable pulse. -/
theorem displayRun_writeNibble (hv : s.cfg.Valid) (nib : Nibble) :
    DisplayRun s.sDir (fun j => drivenBus s.dOe ⟨nib, enLevel s.cfg j, s.dRs⟩)
      (settle op (writeNibble s.cfg nib ++ k) s) s.cfg.nibbleTicks
      (settle op k (s.displayed s.cfg.nibbleTicks [nibbleLatch s.cfg s.t s.dRs nib] s.dRs nib)) := by
  obtain ⟨-, -, -, hsetup, hhigh, hsettle, -⟩ := hv
  have setup : DisplayRun s.sDir _ (settle op (writeNibble s.cfg nib ++ k) s) _ _ :=
    displayRun_phase (due := [.setDb nib, .setEn false]) (s' := s.holding s.cfg.enSetupTicks nib false)
      (by simp [Stmt.takesTick]) hsetup (by simp [runDue, Stmt.takesTick, perform, State.holding, State.elapsed])
  have high := setup.trans (displayRun_phase (due := [.setEn true])
    (s' := s.holding (s.cfg.enSetupTicks + s.cfg.enHighTicks) nib true) (by simp [Stmt.takesTick]) hhigh
    (by simp [runDue, Stmt.takesTick, perform, State.holding, State.elapsed, Nat.add_assoc]))
  have low := high.trans (displayRun_phase (due := [.setEn false, .emitLatch nib]) (n := s.cfg.enSettleTicks)
    (s' := s.displayed s.cfg.nibbleTicks [nibbleLatch s.cfg s.t s.dRs nib] s.dRs nib) (by simp [Stmt.takesTick]) (by omega)
    (by simp [runDue, Stmt.takesTick, perform, State.emitLatch, State.holding, State.displayed, State.withLatches, State.elapsed,
      nibbleLatch, Config.nibbleTicks, Nat.add_assoc]))
  exact low.congr_bus fun j _ _ => enLevel_phases s.cfg (fun en => drivenBus s.dOe ⟨nib, en, s.dRs⟩) j

/-- Whether the bus shows the high or the low nibble of a byte (41_displaylink R71). -/
theorem byteBus_halves (c : Config) (oe : Bool) (rs : Level) (b : Byte) (j : Nat) :
    (if j ≤ c.nibbleTicks then drivenBus oe ⟨highNibble b, enLevel c j, rs⟩
      else drivenBus oe ⟨lowNibble b, enLevel c (j - c.nibbleTicks), rs⟩) = drivenBus oe (byteBus c rs b j) :=
  (apply_ite (drivenBus oe) _ _ _).symm

/-- R71: a byte, its nibbles on the bus one after the other. -/
theorem displayRun_writeByte (hv : s.cfg.Valid) (rs : Level) (b : Byte) :
    DisplayRun s.sDir (fun j => drivenBus s.dOe (byteBus s.cfg rs b j))
      (settle op (writeByte s.cfg rs b ++ k) s) s.cfg.byteTicks
      (settle op k (s.displayed s.cfg.byteTicks (byteLatches s.cfg s.t rs b) rs (lowNibble b))) := by
  have hw : writeByte s.cfg rs b ++ k =
      [.setRs rs] ++ (writeNibble s.cfg (highNibble b) ++ (writeNibble s.cfg (lowNibble b) ++ k)) := by
    simp [writeByte]
  have hB : s.cfg.byteTicks = s.cfg.nibbleTicks + s.cfg.nibbleTicks := Nat.two_mul _
  have high := displayRun_writeNibble (s := { s with dRs := rs }) (op := op) (k := writeNibble s.cfg (lowNibble b) ++ k) hv
    (highNibble b)
  have low := displayRun_writeNibble (op := op) (k := k)
    (s := State.displayed { s with dRs := rs } s.cfg.nibbleTicks [nibbleLatch s.cfg s.t rs (highNibble b)] rs (highNibble b)) hv
    (lowNibble b)
  rw [displayed_displayed] at low
  have both := (high.trans low).congr_bus fun j _ _ => byteBus_halves s.cfg s.dOe rs b j
  have hk := writeNibble_pending_ne hv (highNibble b) (writeNibble s.cfg (lowNibble b) ++ k)
  rw [hw, hB]
  exact (resumes_settle_append (due := [.setRs rs]) (by simp [Stmt.takesTick]) hk s).run hk
    (Nat.add_pos_left (nibbleTicks_pos hv) _) both

end

/-- Settles O33: where an operation stands at a nibble, its next N ticks are the nibble's run (`nibbleLatch` itself is the name of
the latch event). -/
theorem nibbleLatch_waveform : Obligations.NibbleLatch := by
  intro s op n rest hv hs
  have hrun := hs.resumes.run (writeNibble_pending_ne hv n rest) (nibbleTicks_pos hv) (displayRun_writeNibble hv n)
  exact ⟨hrun.busy, fun k hk1 hk2 => hrun.lastPins hk1 hk2, hrun.eq⟩

/-- Settles O34: where an operation stands at a byte, its next B ticks are the byte's run. -/
theorem byteWrite : Obligations.ByteWrite := by
  intro s op rs b rest hv hs
  have hrun := hs.resumes.run (writeByte_pending_ne hv rs b rest) (byteTicks_pos hv) (displayRun_writeByte hv rs b)
  exact ⟨hrun.busy, fun k hk1 hk2 => hrun.lastPins hk1 hk2, hrun.eq⟩

end Sys2Proof.Machine

/-!
The display commands (41_displaylink R73 to R78): what each is accepted with, and the run that its procedure is.
-/

namespace Sys2Proof.Machine

/-! ### Words and position bytes -/

theorem encode_dcmd_eq_or (b : Byte) : encode (.dcmd b) = 0x3000 ||| b.setWidth 16 := by
  simpa using encode_dcmd_ofNat b.isLt

theorem encode_ddata_eq_or (b : Byte) : encode (.ddata b) = 0x4000 ||| b.setWidth 16 := by
  simpa using encode_ddata_ofNat b.isLt

theorem positionByte_eq (c : Config) (col row : Nat) :
    positionByte c col row = c.ddramSet ||| BitVec.ofNat 8 (col + if row ≠ 0 then c.row1Offset else 0) := by
  simp [positionByte, ddramAddr, rowSelect]

/-- Settles O38: at the reference values the OR is a sum in each of the sixteen columns of both rows. -/
theorem cursorBytesAtReference : Obligations.CursorBytesAtReference := by
  intro col row hcol
  have hrow0 : ∀ c : Fin 16, (0x80#8 ||| BitVec.ofNat 8 c).toNat = 0x80 + c := by decide
  have hrow1 : ∀ c : Fin 16, (0x80#8 ||| BitVec.ofNat 8 (c + 0x40)).toNat = 0xC0 + c := by decide
  rw [positionByte_eq, Config.reference]
  by_cases h : row = 0
  · simpa [h] using hrow0 ⟨col, hcol⟩
  · simpa [h] using hrow1 ⟨col, hcol⟩

/-! ### Acceptance -/

/-- A command that begins with a byte is accepted with RS and the byte's high nibble on the bus registers and EN low (R70, R71). -/
theorem exec_of_writeByte {s : State} {k : List Stmt} {i : Instr} {rs : Level} {b : Byte} (hv : s.cfg.Valid)
    (hb : s.busy = false) (hp : procedureOf s.cfg i = writeByte s.cfg rs b ++ k) :
    exec i s = .next { s with
      ir := encode i, dRs := rs, dDb := highNibble b, dEn := false, seq := .running i.op (pending (procedureOf s.cfg i)) } := by
  rw [exec_idle hb, accept_eq (procedureOf_pending_ne hv i), hp, writeByte_runDue hv]

/-- Settles O26: each procedure is one byte. -/
theorem byteCommandsAccepted : Obligations.ByteCommandsAccepted := by
  intro s b col row hv hb hcol hrow
  rw [← encode_dcmd_eq_or, ← encode_ddata_eq_or, ← encode_dsetcur_ofNat hcol hrow]
  exact ⟨exec_of_writeByte hv hb (List.append_nil _).symm, exec_of_writeByte hv hb (List.append_nil _).symm,
    exec_of_writeByte hv hb (List.append_nil _).symm⟩

/-- Settles O27: both procedures begin with a byte. -/
theorem clearCommandsAccepted : Obligations.ClearCommandsAccepted := by
  intro s row hv hb hrow
  rw [← encode_dclrrow_ofNat hrow]
  exact ⟨exec_of_writeByte hv hb rfl, exec_of_writeByte hv hb (List.append_assoc _ _ _)⟩

/-- Settles O28: `dinitProc_runDue` says what DINIT does before its first tick. -/
theorem dinitAccepted : Obligations.DinitAccepted := by
  intro s hv hb
  rw [exec_idle hb, accept_eq (procedureOf_pending_ne hv .dinit), procedureOf, dinitProc_runDue hv]
  rfl

/-! ### Bytes one after another -/

section
variable {s s' : State} {op : Op} {k : List Stmt} {d : Nat} {dir : Bool}

/-- Bytes add their latch events; the registers the last one leaves do not matter to what comes next. -/
theorem runsTo_writeBytes (hv : s.cfg.Valid) (rs : Level) (bs : List Byte) (d : Nat) (es : List LogEntry) (rs₀ : Level)
    (nib₀ : Nibble) : ∃ rs' nib', RunsTo s.sDir (settle op (writeBytes s.cfg rs bs ++ k) (s.displayed d es rs₀ nib₀))
      (s.cfg.byteTicks * bs.length)
      (settle op k (s.displayed (d + s.cfg.byteTicks * bs.length) (es ++ bytesLatches s.cfg (s.t + d) rs bs) rs' nib')) := by
  induction bs generalizing d es rs₀ nib₀ with
  | nil => exact ⟨rs₀, nib₀, .of_untraced (by simp [writeBytes, bytesLatches])⟩
  | cons b bs ih =>
    have first := displayRun_writeByte (s := s.displayed d es rs₀ nib₀) (op := op) (k := writeBytes s.cfg rs bs ++ k) hv rs b
    rw [displayed_displayed] at first
    obtain ⟨rs', nib', rest⟩ := ih (d + s.cfg.byteTicks) (es ++ byteLatches s.cfg (s.t + d) rs b) rs (lowNibble b)
    have h := first.toRunsTo.trans rest
    have hlen : s.cfg.byteTicks * (b :: bs).length = s.cfg.byteTicks + s.cfg.byteTicks * bs.length := by
      rw [List.length_cons, Nat.mul_succ, Nat.add_comm]
    refine ⟨rs', nib', ?_⟩
    rw [hlen]
    simpa [writeBytes, bytesLatches, Nat.add_assoc] using h

/-- R76: the clear command and its wait, at the end of a procedure. -/
theorem runsTo_clearProc (hv : s.cfg.Valid) (hk : pending k = []) :
    RunsTo s.sDir (settle op (clearProc s.cfg ++ k) s) (s.cfg.byteTicks + s.cfg.clearWaitTicks)
      (settle op k (s.displayed (s.cfg.byteTicks + s.cfg.clearWaitTicks) (byteLatches s.cfg s.t false s.cfg.clearOpcode) false
        (lowNibble s.cfg.clearOpcode))) := by
  have hbyte := displayRun_writeByte (op := op) (k := .repeatTick s.cfg.clearWaitTicks :: k) hv false s.cfg.clearOpcode
  have h := hbyte.toRunsTo.trans (runsTo_lastWait hk (displayed_sDir ..) s.cfg.clearWaitTicks)
  rw [displayed_elapsed] at h
  rwa [clearProc, List.append_assoc]

/-! ### The commands -/

theorem settle_nil (op : Op) (s : State) : settle op [] s = { s with seq := .idle } := settle_last rfl s

/-- A command whose procedure runs to `s'` from its first statement on completes there. -/
theorem completes_of_run {i : Instr} (hv : s.cfg.Valid) (hb : s.busy = false) (hd : 0 < d)
    (h : RunsTo dir (settle i.op (procedureOf s.cfg i) { s with ir := encode i }) d s') : Completes i s d s' := by
  have hk := procedureOf_pending_ne hv i
  have hrun := (resumes_accept hk (encode i) s).run hk hd h.displayRun
  exact ⟨_, exec_idle hb i, hrun.busy, hrun.eq⟩

/-- A command that sends one byte takes B ticks (R74, R75, R77). -/
theorem completes_byte {i : Instr} {rs : Level} {b : Byte} (hv : s.cfg.Valid) (hb : s.busy = false)
    (hp : procedureOf s.cfg i = writeByte s.cfg rs b) : Completes i s s.cfg.byteTicks (s.sentByte (encode i) rs b) := by
  have h := displayRun_writeByte (s := { s with ir := encode i }) (op := i.op) (k := []) hv rs b
  rw [settle_nil, List.append_nil] at h
  exact completes_of_run hv hb (byteTicks_pos hv) (hp ▸ h.toRunsTo)

/-- R78: a position byte, bytes of data and the position byte again. -/
theorem runsTo_repositioned (hv : s.cfg.Valid) (p : Byte) (bs : List Byte) :
    RunsTo s.sDir (settle op (writeByte s.cfg false p ++ writeBytes s.cfg true bs ++ writeByte s.cfg false p) s)
      (s.cfg.byteTicks + s.cfg.byteTicks * bs.length + s.cfg.byteTicks)
      (settle op [] (s.displayed (s.cfg.byteTicks + s.cfg.byteTicks * bs.length + s.cfg.byteTicks)
        (byteLatches s.cfg s.t false p ++ bytesLatches s.cfg (s.t + s.cfg.byteTicks) true bs ++
          byteLatches s.cfg (s.t + (s.cfg.byteTicks + s.cfg.byteTicks * bs.length)) false p) false (lowNibble p))) := by
  have position := displayRun_writeByte (op := op) (k := writeBytes s.cfg true bs ++ writeByte s.cfg false p) hv false p
  obtain ⟨rs', nib', data⟩ := runsTo_writeBytes (op := op) (k := writeByte s.cfg false p) hv true bs s.cfg.byteTicks
    (byteLatches s.cfg s.t false p) false (lowNibble p)
  have back := displayRun_writeByte (op := op) (k := []) (s := s.displayed (s.cfg.byteTicks + s.cfg.byteTicks * bs.length)
    (byteLatches s.cfg s.t false p ++ bytesLatches s.cfg (s.t + s.cfg.byteTicks) true bs) rs' nib') hv false p
  rw [displayed_displayed, List.append_nil] at back
  rw [List.append_assoc]
  exact (position.toRunsTo.trans data).trans back.toRunsTo

end

/-- Settles O35: the procedure is one byte with RS low. -/
theorem dcmdCompletes : Obligations.DcmdCompletes := by
  intro s b hv hb
  rw [← encode_dcmd_eq_or]
  exact completes_byte hv hb rfl

/-- Settles O36: the procedure is one byte with RS high. -/
theorem ddataCompletes : Obligations.DdataCompletes := by
  intro s b hv hb
  rw [← encode_ddata_eq_or]
  exact completes_byte hv hb rfl

/-- Settles O37: the procedure is one byte, `positionByte`, with RS low. -/
theorem dsetcurCompletes : Obligations.DsetcurCompletes := by
  intro s col row hv hb hcol hrow
  rw [← encode_dsetcur_ofNat hcol hrow, ← positionByte_eq]
  exact completes_byte hv hb rfl

/-- Settles O39: the procedure is `clearProc`, at whose wait's end no statement is left. -/
theorem dclearCompletes : Obligations.DclearCompletes := by
  intro s hv hb
  have h := runsTo_clearProc (s := { s with ir := encode .dclear }) (op := .dclear) (k := []) hv rfl
  rw [settle_nil, List.append_nil] at h
  exact completes_of_run hv hb (Nat.add_pos_left (byteTicks_pos hv) _) h

/-- Settles O40: the data between the two position bytes are sixteen spaces. -/
theorem dclrrowCompletes : Obligations.DclrrowCompletes := by
  intro s row hv hb hrow p B
  have hp : positionByte s.cfg 0 row = p := by rw [positionByte_eq, Nat.zero_add]
  have h := runsTo_repositioned (s := { s with ir := encode (.dclrrow row) }) (op := .dclrrow) hv p
    (List.replicate 16 s.cfg.spaceChar)
  rw [settle_nil] at h
  refine completes_of_run hv hb (Nat.mul_pos (by decide) (byteTicks_pos hv)) (dir := s.sDir) ?_
  rw [show 18 * B = B + B * 16 + B by omega, show 17 * B = B + B * 16 by omega, procedureOf, clrrowProc, hp,
    ← encode_dclrrow_ofNat hrow]
  exact h

/-! ### DINIT -/

/-- Nibbles, each with the wait after it (41_displaylink R73). -/
def nibblesProc (c : Config) : List (Nibble × Nat) → List Stmt
  | [] => []
  | (nib, n) :: ps => writeNibble c nib ++ .repeatTick n :: nibblesProc c ps

/-- The ticks of nibbles and their waits. -/
def nibblesTicks (c : Config) : List (Nibble × Nat) → Nat
  | [] => 0
  | (_, n) :: ps => c.nibbleTicks + n + nibblesTicks c ps

/-- The latch events of nibbles and their waits from tick `t0 + 1` on. -/
def nibblesLatches (c : Config) : Nat → Level → List (Nibble × Nat) → List LogEntry
  | _, _, [] => []
  | t0, rs, (nib, n) :: ps => nibbleLatch c t0 rs nib :: nibblesLatches c (t0 + c.nibbleTicks + n) rs ps

section
variable {s s' : State} {op : Op} {k : List Stmt} {d : Nat} {bus : Nat → Option BusLevels}

/-- A nibble and its wait come before a run that has a tick. -/
theorem RunsTo.after_nibble (hv : s.cfg.Valid) (hk : pending k ≠ []) (hd : 0 < d) (nib : Nibble) (n : Nat)
    (h : RunsTo s.sDir (settle op k (s.displayed (s.cfg.nibbleTicks + n) [nibbleLatch s.cfg s.t s.dRs nib] s.dRs nib)) d s') :
    RunsTo s.sDir (settle op (writeNibble s.cfg nib ++ .repeatTick n :: k) s) (s.cfg.nibbleTicks + n + d) s' := by
  rw [← displayed_elapsed] at h
  have hwait := (h.displayRun.after_repeatTick hk hd (displayed_sDir ..)).toRunsTo
  rw [Nat.add_assoc]
  exact (displayRun_writeNibble hv nib).toRunsTo.trans hwait

/-- Nibbles and their waits come before a run that has a tick, by induction on the nibbles after the first. -/
theorem RunsTo.after_nibbles (hv : s.cfg.Valid) (hk : pending k ≠ []) (hd : 0 < d) (p : Nibble × Nat)
    (ps : List (Nibble × Nat)) (h : ∀ nib, RunsTo s.sDir (settle op k (s.displayed (nibblesTicks s.cfg (p :: ps))
      (nibblesLatches s.cfg s.t s.dRs (p :: ps)) s.dRs nib)) d s') :
    RunsTo s.sDir (settle op (nibblesProc s.cfg (p :: ps) ++ k) s) (nibblesTicks s.cfg (p :: ps) + d) s' := by
  induction ps generalizing s p with
  | nil =>
    obtain ⟨nib, n⟩ := p
    simpa [nibblesProc, nibblesTicks] using RunsTo.after_nibble hv hk hd nib n (h nib)
  | cons q qs ih =>
    obtain ⟨nib, n⟩ := p
    have hk' : pending (nibblesProc s.cfg (q :: qs) ++ k) ≠ [] := by
      rw [nibblesProc, List.append_assoc]; exact writeNibble_pending_ne hv _ _
    have hrest := ih (s := s.displayed (s.cfg.nibbleTicks + n) [nibbleLatch s.cfg s.t s.dRs nib] s.dRs nib) hv q fun nib' => by
      rw [displayed_displayed]
      simpa [nibblesTicks, nibblesLatches, Nat.add_assoc] using h nib'
    rw [nibblesProc, nibblesTicks, Nat.add_assoc (s.cfg.nibbleTicks + n), List.append_assoc]
    exact RunsTo.after_nibble hv hk' (Nat.add_pos_right _ hd) nib n hrest

/-- Bytes and the clear command end a procedure (R73). -/
theorem runsTo_writeBytes_clear (hv : s.cfg.Valid) (hk : pending k = []) (bs : List Byte) (d : Nat) (es : List LogEntry)
    (rs₀ : Level) (nib₀ : Nibble) :
    RunsTo s.sDir (settle op (writeBytes s.cfg false bs ++ (clearProc s.cfg ++ k)) (s.displayed d es rs₀ nib₀))
      (s.cfg.byteTicks * bs.length + (s.cfg.byteTicks + s.cfg.clearWaitTicks))
      (settle op k (s.displayed (d + s.cfg.byteTicks * bs.length + (s.cfg.byteTicks + s.cfg.clearWaitTicks))
        (es ++ bytesLatches s.cfg (s.t + d) false bs ++
          byteLatches s.cfg (s.t + (d + s.cfg.byteTicks * bs.length)) false s.cfg.clearOpcode)
        false (lowNibble s.cfg.clearOpcode))) := by
  obtain ⟨rs', nib', bytes⟩ := runsTo_writeBytes (op := op) (k := clearProc s.cfg ++ k) hv false bs d es rs₀ nib₀
  have clear := runsTo_clearProc (op := op) (s := s.displayed (d + s.cfg.byteTicks * bs.length)
    (es ++ bytesLatches s.cfg (s.t + d) false bs) rs' nib') hv hk
  rw [displayed_displayed] at clear
  exact bytes.trans clear

theorem writeBytes_clear_pending_ne {c : Config} (hv : c.Valid) (rs : Level) (bs : List Byte) (k : List Stmt) :
    pending (writeBytes c rs bs ++ (clearProc c ++ k)) ≠ [] := by
  cases bs with
  | nil => rw [writeBytes, List.nil_append, clearProc, List.append_assoc]; exact writeByte_pending_ne hv _ _ _
  | cons b bs => rw [writeBytes, List.append_assoc]; exact writeByte_pending_ne hv _ _ _

/-- The nibbles of DINIT with their waits (R73). -/
def dinitNibbles (c : Config) : List (Nibble × Nat) :=
  [(c.funcsetNibble, c.initWait1Ticks), (c.funcsetNibble, c.initWait2Ticks), (c.funcsetNibble, c.initWait3Ticks),
    (c.mode4Nibble, c.initWait4Ticks)]

/-- The procedure of DINIT after its first wait. -/
def dinitBody (c : Config) : List Stmt :=
  nibblesProc c (dinitNibbles c) ++ (writeBytes c false c.initTail ++ (clearProc c ++ [.setInitd true]))

theorem dinitProc_eq (c : Config) :
    dinitProc c = [.setInitd false, .setDOe true, .setRs false] ++ .repeatTick c.initWait0Ticks :: dinitBody c := by
  simp [dinitProc, dinitBody, dinitNibbles, nibblesProc]

/-- After its first wait DINIT sends its first function-set nibble (R73). -/
theorem dinitBody_eq_writeNibble_append (c : Config) : ∃ r, dinitBody c = writeNibble c c.funcsetNibble ++ r :=
  ⟨_, List.append_assoc _ _ _⟩

theorem dinitBody_pending_ne {c : Config} (hv : c.Valid) : pending (dinitBody c) ≠ [] := by
  obtain ⟨r, hr⟩ := dinitBody_eq_writeNibble_append c
  rw [hr]
  exact writeNibble_pending_ne hv _ _

/-- `s` as an accepted DINIT leaves it, its first nibble and SEQ apart (R73). -/
def State.bringingUp (s : State) : State := { s with ir := 0x2000, initd := false, dOe := true, dRs := false }

theorem runDue_bringingUp (s : State) :
    runDue [.setInitd false, .setDOe true, .setRs false] { s with ir := encode .dinit } = s.bringingUp := by
  simp [runDue, Stmt.takesTick, perform, State.bringingUp, encode]

theorem resumes_accept_dinit (hv : s.cfg.Valid) :
    (s.accept .dinit (encode .dinit) (dinitProc s.cfg)).Resumes .dinit (.repeatTick s.cfg.initWait0Ticks :: dinitBody s.cfg)
      s.bringingUp := by
  have h := resumes_accept (op := .dinit) (dinitProc_pending_ne hv) (encode .dinit) s
  rw [dinitProc_eq] at h ⊢
  rw [← runDue_bringingUp]
  exact h.append (by simp [Stmt.takesTick])

/-- An accepted DINIT runs its first wait and goes on as its body does. -/
theorem displayRun_accept_dinit (hv : s.cfg.Valid) (hd : 0 < d)
    (h : DisplayRun s.sDir bus (settle .dinit (dinitBody s.cfg) (s.bringingUp.elapsed s.cfg.initWait0Ticks)) d s') :
    DisplayRun s.sDir (fun j => if j ≤ s.cfg.initWait0Ticks then s.bringingUp.bus else bus (j - s.cfg.initWait0Ticks))
      (s.accept .dinit (encode .dinit) (dinitProc s.cfg)) (s.cfg.initWait0Ticks + d) s' := by
  have hk := dinitBody_pending_ne hv
  have hk' : pending (.repeatTick s.cfg.initWait0Ticks :: dinitBody s.cfg) ≠ [] := by
    cases s.cfg.initWait0Ticks with
    | zero => rwa [pending_cons_due rfl]
    | succ n => exact pending_repeatTick_ne n.succ_ne_zero _
  exact (resumes_accept_dinit hv).run hk' (by omega) (h.after_repeatTick hk hd rfl)

/-- The nibbles, INIT_TAIL and the clear command of DINIT, with their waits (R73). -/
theorem runsTo_dinitBody {c : Config} (hv : c.Valid) (hc : s.cfg = c) (hrs : s.dRs = false) :
    let D := nibblesTicks c (dinitNibbles c)
    let L := c.byteTicks * c.initTail.length
    RunsTo s.sDir (settle .dinit (dinitBody c) s) (D + (L + (c.byteTicks + c.clearWaitTicks)))
      (settle .dinit [.setInitd true] (s.displayed (D + L + (c.byteTicks + c.clearWaitTicks))
        (nibblesLatches c s.t false (dinitNibbles c) ++ bytesLatches c (s.t + D) false c.initTail ++
          byteLatches c (s.t + (D + L)) false c.clearOpcode) false (lowNibble c.clearOpcode))) := by
  intro D L
  subst hc
  have hpos := byteTicks_pos hv
  have hk := writeBytes_clear_pending_ne hv false s.cfg.initTail [.setInitd true]
  refine RunsTo.after_nibbles hv hk (by omega) _ _ fun nib => ?_
  rw [hrs]
  exact runsTo_writeBytes_clear hv rfl s.cfg.initTail D _ false nib

/-- What a DINIT of `w + d` ticks leaves (R73). -/
theorem settle_setInitd_displayed (s : State) (w d : Nat) (es : List LogEntry) (nib : Nibble) :
    settle .dinit [.setInitd true] ((s.bringingUp.elapsed w).displayed d es false nib) =
      { s.elapsed (w + d) with
        latchLog := s.latchLog ++ es, ir := 0x2000, initd := true, dOe := true, dRs := false, dDb := nib, dEn := false } := by
  rw [settle_last rfl]
  simp [runDue, Stmt.takesTick, perform, State.displayed, State.withLatches, State.elapsed, State.bringingUp, Nat.add_assoc]

end

/-- Settles O41: the first wait, and then `runsTo_dinitBody`. -/
theorem dinitCompletes : Obligations.DinitCompletes := by
  intro s hv hb c N t1 t2 t3 t4 t5 t6 d
  have hpos := byteTicks_pos hv
  have hbody := runsTo_dinitBody (s := s.bringingUp.elapsed c.initWait0Ticks) hv rfl rfl
  have hrun := displayRun_accept_dinit hv (by omega) hbody.displayRun
  have hd : d = c.initWait0Ticks + (nibblesTicks c (dinitNibbles c) +
      (c.byteTicks * c.initTail.length + (c.byteTicks + c.clearWaitTicks))) := by
    simp only [d, N, nibblesTicks, dinitNibbles]
    omega
  refine ⟨_, exec_idle hb .dinit, hd ▸ hrun.busy, ?_⟩
  rw [hd, Instr.op, procedureOf, hrun.eq, settle_setInitd_displayed]
  simp [State.elapsed, State.bringingUp, nibblesLatches, dinitNibbles, nibblesTicks, N, t1, t2, t3, t4, t5, t6, c, Nat.add_assoc]

/-! ### The pins from acceptance on -/

/-- What acceptance has performed of a procedure may be performed again. -/
theorem runDue_procedureOf_runDue {c : Config} (hv : c.Valid) (i : Instr) (s : State) :
    runDue (procedureOf c i) (runDue (procedureOf c i) s) = runDue (procedureOf c i) s := by
  by_cases hs : i.op = .sread
  · cases i <;> cases hs
    simp only [procedureOf, sreadProc_runDue hv]
  by_cases hd : i.op = .dinit
  · cases i <;> cases hd
    simp only [procedureOf, dinitProc_runDue hv]
    split <;> rfl
  obtain ⟨rs, b, r, hp⟩ := procedureOf_eq_writeByte_append c hs hd
  simp only [hp, writeByte_runDue hv]

theorem standsAt_accept {s : State} (hv : s.cfg.Valid) (i : Instr) :
    (s.accept i.op (encode i) (procedureOf s.cfg i)).StandsAt i.op (procedureOf s.cfg i) := by
  refine ⟨pending (procedureOf s.cfg i), accept_seq hv i, pending_pending _, ?_⟩
  have hseq := runDue_withSeq (procedureOf s.cfg i) { runDue (procedureOf s.cfg i) s with ir := encode i }
    (.running i.op (pending (procedureOf s.cfg i)))
  rw [runDue_withIr _ (runDue (procedureOf s.cfg i) s), runDue_procedureOf_runDue hv] at hseq
  rw [runDue_pending, accept_eq (procedureOf_pending_ne hv i)]
  exact hseq.symm

@[simp] theorem accept_t (op : Op) (w : Word) (proc : List Stmt) (s : State) : (s.accept op w proc).t = s.t := by
  simp [State.accept]

/-- Settles O60: the run of the first byte, or of DINIT's first nibble after its wait, resumes at the acceptance. -/
theorem displayPinsFromAcceptance : Obligations.DisplayPinsFromAcceptance := by
  intro i s hv hb
  refine ⟨_, exec_idle hb i, standsAt_accept hv i, fun rs b rest hp j hj1 hj2 => ?_, ?_⟩
  · have hk := writeByte_pending_ne hv rs b rest
    have hrun := (resumes_accept (op := i.op) hk (encode i) s).run hk (byteTicks_pos hv)
      (displayRun_writeByte (s := { s with ir := encode i }) hv rs b)
    rw [hp, hrun.lastPins hj1 hj2, accept_t]
    rfl
  · rintro rfl j hj1 hj2
    obtain ⟨r, hr⟩ := dinitBody_eq_writeNibble_append s.cfg
    have hnibble := displayRun_writeNibble (s := s.bringingUp.elapsed s.cfg.initWait0Ticks) (op := .dinit) (k := r) hv
      s.cfg.funcsetNibble
    have hrun := displayRun_accept_dinit hv (nibbleTicks_pos hv) (hr ▸ hnibble)
    have hpins := hrun.lastPins (j := s.cfg.initWait0Ticks + j) (by omega) (by omega)
    rw [if_neg (by omega), Nat.add_sub_cancel_left, accept_t, ← Nat.add_assoc] at hpins
    exact hpins

/-! ### The latch log -/

/-- Settles O55: that the latch log is what the pins show is part of the invariant, which every step keeps. -/
theorem latchLogIsEnableFalls : Obligations.LatchLogIsEnableFalls := by
  intro s u hs h
  obtain ⟨-, -, -, hlog, -⟩ := stepKeepsLegal s u hs h
  exact hlog

end Sys2Proof.Machine

/-!
The stops of a step (60_exceptions R84, 20_memory R37, 00_scope R9): the block itself has none, so a step that answers no next
state had a bad configuration or a host access that the window does not perform.
-/

namespace Sys2Proof.Machine

section
variable {s u : State} {e : Event} {es : List Event} {addr n : Nat} {v : Byte}

/-! ### Performed accesses -/

/-- An access in the window has an offset. -/
theorem exists_offset {c : Config} (hlo : c.baseAddr ≤ addr) (hhi : addr < c.baseAddr + 16) :
    ∃ off, off < 16 ∧ addr = c.baseAddr + off :=
  ⟨addr - c.baseAddr, by omega, by omega⟩

theorem step_answers_read (hv : s.cfg.Valid) (hs : s.schedule = .read addr 1 :: es) (hlo : s.cfg.baseAddr ≤ addr)
    (hhi : addr < s.cfg.baseAddr + 16) : ∃ u, step s = .next u := by
  obtain ⟨off, hoff, rfl⟩ := exists_offset hlo hhi
  exact ⟨_, step_of_nextRead ⟨hv, hoff, hs⟩⟩

theorem step_answers_write (hv : s.cfg.Valid) (hs : s.schedule = .write addr 1 v :: es) (hlo : s.cfg.baseAddr ≤ addr)
    (hhi : addr < s.cfg.baseAddr + 16) : ∃ u, step s = .next u := by
  obtain ⟨off, hoff, rfl⟩ := exists_offset hlo hhi
  rw [step_of_nextWrite ⟨hv, hoff, hs⟩]
  exact writeReg_answers _ _ _

/-- Of what a step that answers can have done, only a one-byte access of the window takes an access off the schedule. -/
theorem access_inWindow_of_step (h : step s = .next u) (hs : s.schedule = e :: es)
    (hacc : e = .read addr n ∨ ∃ v, e = .write addr n v) :
    s.cfg.baseAddr ≤ addr ∧ addr < s.cfg.baseAddr + 16 ∧ n = 1 := by
  obtain ⟨-, ⟨_, ⟨hs', -⟩ | hs', -⟩ | ⟨off, _, hoff, hs', -⟩ | ⟨off, _, _, hoff, hs', -⟩ | ⟨_, hs', -⟩ | ⟨_, hs', -⟩⟩ :=
    step_cases h <;> cases hs.symm.trans hs' <;> simp at hacc
  case inr.inl => omega
  case inr.inr.inl => omega

end

/-! ### The obligation -/

/-- Settles O19: a step that answers performed its access, and with a valid configuration every event but an access answers. -/
theorem stepStopsOnlyByName : Obligations.StepStopsOnlyByName := by
  refine fun s => ⟨?_, fun ⟨hv, hacc⟩ => ?_⟩
  · rintro ⟨u, h⟩
    exact ⟨(step_cases h).1, fun e es hs addr n hacc => access_inWindow_of_step h hs hacc⟩
  · cases hs : s.schedule with
    | nil => exact ⟨_, step_tick_of_noEvent hv hs⟩
    | cons e es =>
      cases e with
      | read addr n =>
        obtain ⟨hlo, hhi, rfl⟩ := hacc _ _ hs addr n (.inl rfl)
        exact step_answers_read hv hs hlo hhi
      | write addr n v =>
        obtain ⟨hlo, hhi, rfl⟩ := hacc _ _ hs addr n (.inr ⟨v, rfl⟩)
        exact step_answers_write hv hs hlo hhi
      | tick => exact ⟨_, step_event hv hs⟩
      | waitIdle => exact ⟨_, step_event hv hs⟩
      | reset => exact ⟨_, step_event hv hs⟩

end Sys2Proof.Machine

/-!
Reset and hazards (70_reset R95, R96, R98): what a reset leaves of the state and of the latch log, and why OVR needs a broken host
obligation.
-/

namespace Sys2Proof.Machine

section
variable {s : State} {es : List Event}

/-! ### Reset -/

theorem step_reset (hv : s.cfg.Valid) (hs : s.schedule = .reset :: es) :
    step s = .next (resetNow { s with schedule := es }) := step_event hv hs

/-- A display operation on a driven bus is what a reset interrupts with a marker (70_reset R96(b)). -/
theorem displayLive_iff :
    s.displayLive = true ↔ (∃ op rest, s.seq = .running op rest ∧ op ≠ .sread) ∧ s.dOe = true := by
  unfold State.displayLive
  cases s.seq with
  | idle => simp
  | running op rest => simp [isDisplay_iff]

theorem resetNow_latchLog_of_displayLive (h : s.displayLive = true) :
    (resetNow s).latchLog = s.latchLog ++ [.abort s.t] := if_pos h

theorem resetNow_latchLog_of_not_displayLive (h : ¬ s.displayLive = true) : (resetNow s).latchLog = s.latchLog := if_neg h

/-- An idle block, a block in an SREAD and a block with its bus released have no display operation to interrupt. -/
theorem not_displayLive (h : s.seq = .idle ∨ (∃ rest, s.seq = .running .sread rest) ∨ s.dOe = false) :
    ¬ s.displayLive = true := by
  rw [displayLive_iff]
  rintro ⟨⟨op, rest, hq, hop⟩, hoe⟩
  obtain hidle | ⟨rest', hread⟩ | hreleased := h
  · cases hq.symm.trans hidle
  · cases hq.symm.trans hread; exact hop rfl
  · cases hoe.symm.trans hreleased

/-! ### Presenting a command to a busy block -/

/-- The busy test of the obligations is the block's own: it does not look at the word (70_reset R98). -/
theorem issueWhileBusy_mem_presentHazards (hb : s.busy = true) (m : Monitor) (v : Byte) :
    .issueWhileBusy ∈ presentHazards m v s := by
  simp [presentHazards, hb]

theorem hazards_of_cmdhWrite {n : Nat} {v : Byte} (hs : s.schedule = .write (s.cfg.baseAddr + 1) n v :: es) (m : Monitor) :
    hazards m s = presentHazards m v s := by
  simp only [hazards, hs, List.head?_cons, windowOffset_eq (show 1 < 16 by decide)]
  rfl

end

/-! ### The obligations -/

/-- Settles O23: the state after `resetNow` is written out in the statement but for FRAME and the latch log. -/
theorem resetFromAnyState : Obligations.ResetFromAnyState :=
  fun _ _ hv hs => ⟨_, step_reset hv hs, rfl, rfl, rfl, rfl, rfl, rfl, rfl⟩

/-- Settles O24: the marker is recorded exactly when a display operation is live. -/
theorem resetAbortMarker : Obligations.ResetAbortMarker := by
  intro s u es hs h
  obtain ⟨hv, -⟩ := step_cases h
  obtain rfl : resetNow { s with schedule := es } = u := Host.Outcome.next.inj ((step_reset hv hs).symm.trans h)
  exact ⟨fun hrun hoe => resetNow_latchLog_of_displayLive (displayLive_iff.2 ⟨hrun, hoe⟩),
    fun hquiet => resetNow_latchLog_of_not_displayLive (not_displayLive hquiet)⟩

/-- Settles O58: OVR rises only at a CMDH write to a busy block, and that write breaks R98. -/
theorem hazardFreeStepNeverOverruns : Obligations.HazardFreeStepNeverOverruns := by
  intro m s u hfree h hu
  by_contra hovr
  obtain ⟨-, -, -, hrise⟩ := errorBitsAreSticky s u h
  obtain ⟨hb, v, es, hs⟩ := hrise (by simpa using hovr) hu
  have hmem := issueWhileBusy_mem_presentHazards hb m v
  rw [← hazards_of_cmdhWrite hs, hfree] at hmem
  exact List.not_mem_nil hmem

end Sys2Proof.Machine
